-- ==== Sys2Proof/Word.lean ====
section
/-! DEFINITION. The word type of the ChaCha20 permutation core, the 16-word vector, and the names of the
errors a CMD write or a bus access can record (spec/00_scope.md R7, R9 to R11; spec/60_exceptions.md R108). -/

namespace Sys2Proof

/-- A state word: 32 bits, unsigned; `+` and `-` are modulo 2^32 (R7, R10). Bit 0 has weight 1 (R9). -/
abbrev Word := BitVec 32

/-- A 16-word vector: one State of the source, the contents of one bank (R11, R14). -/
abbrev Block := Vector Word 16

/-- A bank number 0 to 7 (R7). -/
abbrev BankNo := BitVec 3

/-- A word index 0 to 15 (R7). -/
abbrev WordNo := BitVec 4

/-- A bit index or a shift, 0 to 31 (R7). -/
abbrev BitNo := BitVec 5

/-- A round number 0 to 31; every value is legal (R7). -/
abbrev RoundNo := BitVec 5

/-- A quarter-round group number 0 to 7 (R7, R67). -/
abbrev GroupNo := BitVec 3

/-- Word `w` of a vector (`V[w]`, R11). -/
def getWord (v : Block) (w : WordNo) : Word :=
  v[w.toNat]'(by have := w.isLt; omega)

/-- `V` with word `w` replaced by `x` (`V[w] := x`, R11). -/
def putWord (v : Block) (w : WordNo) (x : Word) : Block :=
  v.set w.toNat x (by have := w.isLt; omega)

/-- The vector whose 16 words are 0. -/
def zeroBlock : Block := Vector.replicate 16 0#32

/-- The errors the core records (R108). The number that STATUS.ERRCODE shows for each is
`Machine.errCodeBits`. -/
inductive ErrCode where
  /-- E_OPCODE: the opcode is 15 to 31. -/
  | opcode
  /-- E_RSVD: a reserved bit of the opcode's format is 1. -/
  | rsvd
  /-- E_RANGE: K > R, lo > hi, or a rotation by 0. -/
  | range
  /-- E_BUSY: a host write to CMD, a bank word or a counter while BUSY = 1. -/
  | busy
  /-- E_CNT: a compare while a counter is 0xFFFFFFFF. -/
  | cnt
  /-- E_BUS: an access that is not 32 bits wide or not aligned to 4. -/
  | bus
deriving DecidableEq, Repr

end Sys2Proof
end

