-- ==== Sys2Proof/Syntax.lean ====
section
/-! DEFINITION. The command set as syntax: one constructor per row of spec/opcode_table.json
(spec/30_encoding.md R50 to R57; the operands are those of the rules R75 to R91). -/

namespace Sys2Proof

/-- A command. Every field is the unsigned number in its bits (R56). -/
inductive Instr where
  /-- NOP (R91). -/
  | nop
  /-- QR: destination bank `d`, source bank `a`, group `g` (R77). -/
  | qr (d a : BankNo) (g : GroupNo)
  /-- IQR: destination bank `d`, source bank `a`, group `g` (R78). -/
  | iqr (d a : BankNo) (g : GroupNo)
  /-- BLK with E = 0: destination `d`, source `a`, round count `r`, finalize flag `f` (R79). -/
  | blk (d a : BankNo) (r : RoundNo) (f : Bool)
  /-- BLK with E = 1: as `blk`, with snapshot bank `p` and snapshot round `k` (R79). -/
  | blkSnap (d a p : BankNo) (r k : RoundNo) (f : Bool)
  /-- INVP: destination `d`, source `a`, rounds [`lo`, `hi`) (R80). -/
  | invp (d a : BankNo) (hi lo : RoundNo)
  /-- ADD: `d` gets `a` plus `b`, word by word (R82). -/
  | add (d a b : BankNo)
  /-- SUB: `d` gets `a` minus `b`, word by word (R83). -/
  | sub (d a b : BankNo)
  /-- COPY (R84). -/
  | copy (d a : BankNo)
  /-- CONST: the four state constants into words 0 to 3, the rest from `a` (R85). -/
  | const (d a : BankNo)
  /-- XBIT: bit `n` of word `w` flipped (R86). -/
  | xbit (d a : BankNo) (w : WordNo) (n : BitNo)
  /-- ROTL: word `w` rotated left by `n` (R75). -/
  | rotl (d a : BankNo) (w : WordNo) (n : BitNo)
  /-- ROTR: word `w` rotated right by `n` (R76). -/
  | rotr (d a : BankNo) (w : WordNo) (n : BitNo)
  /-- CMP2: the two-state compare of bit `n` of word `w` (R88). -/
  | cmp2 (k0 k1 : BankNo) (w : WordNo) (n : BitNo)
  /-- CMP4: the four-state compare of bit `n` of word `w` (R89). -/
  | cmp4 (k0 k1 k2 k3 : BankNo) (w : WordNo) (n : BitNo)
  /-- CLRC: clear the counters and CMPR (R90). -/
  | clrc
deriving DecidableEq, Repr

end Sys2Proof
end

