-- ==== Sys2Proof/WellFormed.lean ====
section
/-! DEFINITION. The operand ranges a command must meet (check 3 of spec/30_encoding.md R49). A command that
decodes but is not well formed is rejected with E_RANGE by its own meaning (R75, R76, R79, R80). -/

namespace Sys2Proof

/-- The range checks of R49: K ≤ R for BLK with E = 1, lo ≤ hi for INVP, N ≥ 1 for ROTL and ROTR. -/
def Instr.inRange : Instr → Bool
  | .nop => true
  | .qr _ _ _ => true
  | .iqr _ _ _ => true
  | .blk _ _ _ _ => true
  | .blkSnap _ _ _ r k _ => decide (k.toNat ≤ r.toNat)
  | .invp _ _ hi lo => decide (lo.toNat ≤ hi.toNat)
  | .add _ _ _ => true
  | .sub _ _ _ => true
  | .copy _ _ => true
  | .const _ _ => true
  | .xbit _ _ _ _ => true
  | .rotl _ _ _ n => decide (1 ≤ n.toNat)
  | .rotr _ _ _ n => decide (1 ≤ n.toNat)
  | .cmp2 _ _ _ _ => true
  | .cmp4 _ _ _ _ _ _ => true
  | .clrc => true

/-- A command whose operands pass the range checks of R49. -/
abbrev Instr.WellFormed (i : Instr) : Prop := i.inRange = true

end Sys2Proof
end

