-- ==== Sys2Proof/Decode.lean ====
section
/-! DEFINITION. The command word: the rows of the opcode map, the fields of the six formats, decoding, encoding, and
the byte lanes of a word (spec/30_encoding.md R49 to R59; spec/20_memory.md R38). Decoding makes checks 1 and 2 of R49
(opcode, reserved bits); check 3 (ranges) and check 4 (counters) are each command's own. -/

namespace Sys2Proof

/-- One row of the opcode map (R57): a word belongs to the row when `word &&& mask = pattern`. -/
structure Row where
  mnemonic : String
  pattern : Word
  mask : Word
deriving DecidableEq, Repr

/-- The word has every fixed bit of the row: the opcode, and 0 in every reserved bit. -/
def Row.accepts (r : Row) (v : Word) : Bool := v &&& r.mask == r.pattern

def rowNop : Row := ⟨"NOP", 0x00000000#32, 0xFFFFFFFF#32⟩
def rowQr : Row := ⟨"QR", 0x08000000#32, 0xF803FFFF#32⟩
def rowIqr : Row := ⟨"IQR", 0x10000000#32, 0xF803FFFF#32⟩
def rowBlk : Row := ⟨"BLK__E_0", 0x18000000#32, 0xF81C1FBF#32⟩
def rowBlkSnap : Row := ⟨"BLK__E_1", 0x18000080#32, 0xF80000BF#32⟩
def rowInvp : Row := ⟨"INVP", 0x20000000#32, 0xF81C00FF#32⟩
def rowAdd : Row := ⟨"ADD", 0x28000000#32, 0xF803FFFF#32⟩
def rowSub : Row := ⟨"SUB", 0x30000000#32, 0xF803FFFF#32⟩
def rowCopy : Row := ⟨"COPY", 0x38000000#32, 0xF81FFFFF#32⟩
def rowConst : Row := ⟨"CONST", 0x40000000#32, 0xF81FFFFF#32⟩
def rowXbit : Row := ⟨"XBIT", 0x48000000#32, 0xF81F803F#32⟩
def rowRotl : Row := ⟨"ROTL", 0x50000000#32, 0xF81F803F#32⟩
def rowRotr : Row := ⟨"ROTR", 0x58000000#32, 0xF81F803F#32⟩
def rowCmp2 : Row := ⟨"CMP2", 0x60000000#32, 0xF81F803F#32⟩
def rowCmp4 : Row := ⟨"CMP4", 0x68000000#32, 0xF800003F#32⟩
def rowClrc : Row := ⟨"CLRC", 0x70000000#32, 0xFFFFFFFF#32⟩

/-- The opcode map (R57), in the order of spec/opcode_table.json. -/
def opcodeTable : List Row :=
  [rowNop, rowQr, rowIqr, rowBlk, rowBlkSnap, rowInvp, rowAdd, rowSub,
   rowCopy, rowConst, rowXbit, rowRotl, rowRotr, rowCmp2, rowCmp4, rowClrc]

/-! The fields of the formats (R50 to R55). -/

/-- The opcode, bits 31:27 of every command. -/
def fieldOp (v : Word) : BitVec 5 := v.extractLsb' 27 5
/-- D (Q, T, V, X) or K0 (C), bits 26:24. -/
def fieldD (v : Word) : BankNo := v.extractLsb' 24 3
/-- A (Q, T, V, X) or K1 (C), bits 23:21. -/
def fieldA (v : Word) : BankNo := v.extractLsb' 21 3
/-- G (Q), P (T), B (V) or K2 (C), bits 20:18. -/
def fieldB (v : Word) : BankNo := v.extractLsb' 18 3
/-- K3 (C), bits 17:15. -/
def fieldK3 (v : Word) : BankNo := v.extractLsb' 15 3
/-- RA (T), bits 17:13. -/
def fieldRA (v : Word) : RoundNo := v.extractLsb' 13 5
/-- RB (T), bits 12:8. -/
def fieldRB (v : Word) : RoundNo := v.extractLsb' 8 5
/-- E (T), bit 7. -/
def fieldE (v : Word) : Bool := v.getLsbD 7
/-- F (T), bit 6. -/
def fieldF (v : Word) : Bool := v.getLsbD 6
/-- W (X, C), bits 14:11. -/
def fieldW (v : Word) : WordNo := v.extractLsb' 11 4
/-- N (X, C), bits 10:6. -/
def fieldN (v : Word) : BitNo := v.extractLsb' 6 5

/-- Check 2 of R49 for the row `r`: the command, or E_RSVD where a reserved bit is 1. -/
def checked (r : Row) (v : Word) (i : Instr) : Except ErrCode Instr :=
  if r.accepts v then .ok i else .error .rsvd

/-- The decoder of R57: OP first, for OP 3 then E, then the row's mask; an opcode of no row is E_OPCODE (R58). -/
def decode (v : Word) : Except ErrCode Instr :=
  match (fieldOp v).toNat with
  | 0 => checked rowNop v .nop
  | 1 => checked rowQr v (.qr (fieldD v) (fieldA v) (fieldB v))
  | 2 => checked rowIqr v (.iqr (fieldD v) (fieldA v) (fieldB v))
  | 3 =>
    if fieldE v then
      checked rowBlkSnap v (.blkSnap (fieldD v) (fieldA v) (fieldB v) (fieldRA v) (fieldRB v) (fieldF v))
    else checked rowBlk v (.blk (fieldD v) (fieldA v) (fieldRA v) (fieldF v))
  | 4 => checked rowInvp v (.invp (fieldD v) (fieldA v) (fieldRA v) (fieldRB v))
  | 5 => checked rowAdd v (.add (fieldD v) (fieldA v) (fieldB v))
  | 6 => checked rowSub v (.sub (fieldD v) (fieldA v) (fieldB v))
  | 7 => checked rowCopy v (.copy (fieldD v) (fieldA v))
  | 8 => checked rowConst v (.const (fieldD v) (fieldA v))
  | 9 => checked rowXbit v (.xbit (fieldD v) (fieldA v) (fieldW v) (fieldN v))
  | 10 => checked rowRotl v (.rotl (fieldD v) (fieldA v) (fieldW v) (fieldN v))
  | 11 => checked rowRotr v (.rotr (fieldD v) (fieldA v) (fieldW v) (fieldN v))
  | 12 => checked rowCmp2 v (.cmp2 (fieldD v) (fieldA v) (fieldW v) (fieldN v))
  | 13 => checked rowCmp4 v (.cmp4 (fieldD v) (fieldA v) (fieldB v) (fieldK3 v) (fieldW v) (fieldN v))
  | 14 => checked rowClrc v .clrc
  | _ => .error .opcode

/-- The word that holds the field `x` with its bit 0 at bit `lo`, and 0 elsewhere (R9). -/
def place {n : Nat} (x : BitVec n) (lo : Nat) : Word := x.setWidth 32 <<< lo

/-- Format N (R50). -/
def formatN (op : BitVec 5) : Word := place op 27

/-- Format Q (R51), and format V (R53) with its third field B. -/
def formatQ (op : BitVec 5) (d a g : BitVec 3) : Word := place op 27 ||| place d 24 ||| place a 21 ||| place g 18

/-- Format T (R52). -/
def formatT (op : BitVec 5) (d a p : BitVec 3) (ra rb : BitVec 5) (e f : Bool) : Word :=
  place op 27 ||| place d 24 ||| place a 21 ||| place p 18 ||| place ra 13 ||| place rb 8 |||
    place (BitVec.ofBool e) 7 ||| place (BitVec.ofBool f) 6

/-- Format C (R55); format X (R54) is the same with the fields K2 and K3 reserved. -/
def formatC (op : BitVec 5) (k0 k1 k2 k3 : BitVec 3) (w : BitVec 4) (n : BitVec 5) : Word :=
  place op 27 ||| place k0 24 ||| place k1 21 ||| place k2 18 ||| place k3 15 ||| place w 11 ||| place n 6

/-- The command word of a command (R50 to R57). -/
def encode : Instr → Word
  | .nop => formatN 0#5
  | .qr d a g => formatQ 1#5 d a g
  | .iqr d a g => formatQ 2#5 d a g
  | .blk d a r f => formatT 3#5 d a 0#3 r 0#5 false f
  | .blkSnap d a p r k f => formatT 3#5 d a p r k true f
  | .invp d a hi lo => formatT 4#5 d a 0#3 hi lo false false
  | .add d a b => formatQ 5#5 d a b
  | .sub d a b => formatQ 6#5 d a b
  | .copy d a => formatQ 7#5 d a 0#3
  | .const d a => formatQ 8#5 d a 0#3
  | .xbit d a w n => formatC 9#5 d a 0#3 0#3 w n
  | .rotl d a w n => formatC 10#5 d a 0#3 0#3 w n
  | .rotr d a w n => formatC 11#5 d a 0#3 0#3 w n
  | .cmp2 k0 k1 w n => formatC 12#5 k0 k1 0#3 0#3 w n
  | .cmp4 k0 k1 k2 k3 w n => formatC 13#5 k0 k1 k2 k3 w n
  | .clrc => formatN 14#5

/-- The row of the opcode map that a command belongs to (R57). -/
def rowOf : Instr → Row
  | .nop => rowNop
  | .qr _ _ _ => rowQr
  | .iqr _ _ _ => rowIqr
  | .blk _ _ _ _ => rowBlk
  | .blkSnap _ _ _ _ _ _ => rowBlkSnap
  | .invp _ _ _ _ => rowInvp
  | .add _ _ _ => rowAdd
  | .sub _ _ _ => rowSub
  | .copy _ _ => rowCopy
  | .const _ _ => rowConst
  | .xbit _ _ _ _ => rowXbit
  | .rotl _ _ _ _ => rowRotl
  | .rotr _ _ _ _ => rowRotr
  | .cmp2 _ _ _ _ => rowCmp2
  | .cmp4 _ _ _ _ _ _ => rowCmp4
  | .clrc => rowClrc

/-- Byte lane `k` of a register: bits [8k+7 : 8k] (R38). -/
def byteLane (v : Word) (k : Nat) : BitVec 8 := v.extractLsb' (8 * k) 8

/-- The 32-bit value that four byte lanes carry, lane 0 first (R38). -/
def wordOfLanes (l0 l1 l2 l3 : BitVec 8) : Word :=
  place l0 0 ||| place l1 8 ||| place l2 16 ||| place l3 24

/-- What the decoder reads from a command word whose bits are `w`: one 32-bit word (R59), carried to the core as its
four byte lanes (R38); bits at and above `nbits` are 0. -/
def decodeTableWord (nbits w : Nat) : Option Instr :=
  let v : Word := BitVec.ofNat 32 (w % 2 ^ nbits)
  match decode (wordOfLanes (byteLane v 0) (byteLane v 1) (byteLane v 2) (byteLane v 3)) with
  | .ok i => some i
  | .error _ => none

end Sys2Proof
end

