-- ==== Sys2Proof/Config.lean ====
section
/-! DEFINITION. What the platform fixes (BASE) and the values the spec leaves open: a bank word after reset and a
host read while BUSY = 1. None of the constants below has a body, so no proof can use a value of one.
LAT and LATMAX are not here: the model counts events, not cycles (notes/assumptions/5.md). -/

namespace Sys2Proof.Config

/-- BASE divided by 0x400; OPEN (R31, spec/92_eei_decisions.md "OPEN parameters"). -/
opaque baseIndex : Nat

/-- BASE, the byte address of the register window: a multiple of 0x400 (R31). -/
def base : Nat := 0x400 * baseIndex

/-- What a bank word holds after the reset that took draw `n`, until it is written: unspecified (R17, R30, R124).
DESIGN CHOICE, notes/assumptions/1.md. -/
opaque bankAfterReset (n : Nat) (b w : Nat) : BitVec 32

/-- What the host's read that took draw `n` returns when it reads a bank word, MATCH_CNT, TRIAL_CNT or CMPR while
BUSY = 1: an unspecified value, drawn anew at each read (R130; spec/93_implementation_defined.md I10). -/
opaque busyRead (n : Nat) : BitVec 32

end Sys2Proof.Config
end

