-- ==== Sys2Proof/Machine/State.lean ====
section
/-! DEFINITION. The state of the core (spec/10_state.md), the outside world's side of it (the schedule of host
accesses, sequencer moves and reset-line changes still to come, and the answer to the last access), and the reasons
a step can stop. -/

namespace Sys2Proof.Machine

/-- The width of a bus access; only 32 bits is accepted (R37). -/
inductive Width where
  | w8
  | w16
  | w32
  | w64
deriving DecidableEq, Repr

/-- What an access does. A write carries the 32 bits on the data lanes. -/
inductive AccessKind where
  | read
  | write (v : Word)
deriving DecidableEq, Repr

/-- One host bus access to the window, addressed by its byte offset 0 to 0x3FF (R31). -/
structure Access where
  kind : AccessKind
  width : Width
  off : BitVec 10
deriving DecidableEq, Repr

/-- What the bus answered to the host's last access. -/
inductive Response where
  /-- Nothing has been accessed yet. -/
  | none
  /-- A read returned this word. -/
  | data (v : Word)
  /-- A write was taken by the bus. -/
  | done
  /-- The bus error response of R37; no data. -/
  | busError
deriving DecidableEq, Repr

/-- One move of one agent. The order of the moves in `State.schedule` is the total order of R42. -/
inductive Turn where
  /-- The host makes a bus access. -/
  | access (a : Access)
  /-- The sequencer works: one round of its working buffer, or the commit. -/
  | sequencer
  /-- The reset input is driven (R124). -/
  | resetLine (asserted : Bool)
deriving DecidableEq, Repr

/-- The sequencer's hidden state while a command is busy (R19). -/
structure InFlight where
  /-- The command word, decoded; the word itself is `encode cmd`. -/
  cmd : Instr
  /-- Copy of the first source operand (of words 4 to 15 alone for CONST); 0 where not read. -/
  srcA : Block
  /-- Copy of the second source operand (ADD, SUB); 0 where not read. -/
  srcB : Block
  /-- Copy of word W of the banks K0 to K3 (CMP2, CMP4); 0 where not read. -/
  srcK : Vector Word 4
  /-- The working buffer. -/
  work : Block
  /-- The round index: of BLK the number of the round done next, of INVP one more than that. -/
  round : Nat
  /-- The snapshot buffer (BLK with E = 1). -/
  snap : Block
deriving DecidableEq, Repr

/-- Why the machine stops. -/
inductive Fault where
  /-- A bus access while reset is asserted: the model has no step for it (R124; spec/93_implementation_defined.md I23,
  "stuck"). Raised by `Machine.takeTurn`. Safe: the core does not serve the access. -/
  | accessInReset
  /-- A command source or a host read used a bank word nothing has written since reset (R17, R33, R47). Raised by
  `Safety.strictStep` only, the reading of R17 in which the model stops there; `step` itself goes on with a free value.
  Safe. -/
  | unwrittenRead
  /-- The host program made an access that is not 32 bits wide or not aligned (R37; spec/93_implementation_defined.md I14,
  "`fault` of the host program after E_BUS is recorded"). Raised by `Safety.strictStep` only, the reading of R37 in which the
  model stops there; `step` itself records E_BUS, answers the bus error and goes on. Safe. -/
  | malformedAccess
deriving DecidableEq, Repr

/-- Why an instruction has no meaning. -/
inductive Refusal where
  /-- An instruction with no arm of its own yet. Raised by no arm of `exec`: every command has its meaning. Safe. -/
  | notModelled (mnemonic : String)
deriving DecidableEq, Repr

/-- The state of the core and of its bus. ID and CONST0 to CONST3 are constants (`idWord`, `stateConst`), CMD stores
nothing (R20), and STATUS.BUSY is 1 exactly when a command is in flight (R19, R21). -/
structure State where
  /-- The bank register file (R14). -/
  banks : Vector Block 8
  /-- Bit w of entry b: the host or a command has written word w of bank b since reset (R17). -/
  written : Vector (BitVec 16) 8
  /-- STATUS.ERR (R21). -/
  err : Bool
  /-- STATUS.ERRCODE (R21). -/
  errCode : BitVec 4
  /-- MATCH_CNT (R22). -/
  matchCnt : Word
  /-- TRIAL_CNT (R23). -/
  trialCnt : Word
  /-- CMPR (R25). -/
  cmpr : Word
  /-- The command in flight, if any (R19). -/
  inFlight : Option InFlight
  /-- The reset input is asserted (R124). -/
  inReset : Bool
  /-- The moves still to come, next first (R42, R113). The outside world's, not the core's. -/
  schedule : List Turn
  /-- The bus's answer to the host's last access. -/
  response : Response
  /-- The model's own: how many free values have been drawn. -/
  draws : Nat
  /-- The model's own, sticky: some command source or host read has used an unwritten bank word (R17). -/
  readUnwritten : Bool
deriving DecidableEq, Repr

/-- The banks after the reset that took draw `n`: unspecified words (R17, R124). -/
def banksAfterReset (n : Nat) : Vector Block 8 :=
  Vector.ofFn fun b => Vector.ofFn fun w => Config.bankAfterReset n b.val w.val

/-- The machine right after reset (R30, R124, R125). -/
def State.reset : State where
  banks := banksAfterReset 0
  written := Vector.replicate 8 0#16
  err := false
  errCode := 0#4
  matchCnt := 0#32
  trialCnt := 0#32
  cmpr := 0#32
  inFlight := none
  inReset := false
  schedule := []
  response := .none
  draws := 1
  readUnwritten := false

end Sys2Proof.Machine
end

