-- ==== Sys2Proof/Machine/Flags.lean ====
section
/-! DEFINITION. The core's only flags: the fields of STATUS and of CMPR (spec/10_state.md R21, R25, R28;
spec/60_exceptions.md R108), as words and as bits. -/

namespace Sys2Proof.Machine

/-- The number STATUS.ERRCODE shows for an error (R108); 0 is "no error". -/
def errCodeBits : ErrCode → BitVec 4
  | .opcode => 1#4
  | .rsvd => 2#4
  | .range => 3#4
  | .busy => 4#4
  | .cnt => 5#4
  | .bus => 6#4

/-- STATUS.BUSY (R21): a command has been accepted and has not committed. -/
def State.busy (s : State) : Bool := s.inFlight.isSome

/-- The STATUS register as the host reads it (R21). -/
def State.statusWord (s : State) : Word :=
  place s.errCode 4 ||| place (BitVec.ofBool s.err) 1 ||| place (BitVec.ofBool s.busy) 0

/-- `bit(v, n)` (R9). -/
def bitOf (v : Word) (n : BitNo) : Bool := v.getLsbD n.toNat

/-- The verdict of CMP2: the two bits are equal (R88). -/
def verdict2 (a b : Bool) : Bool := a == b

/-- The verdict of CMP4: a xor b equals c xor d (R89). -/
def verdict4 (a b c d : Bool) : Bool := (a ^^ b) == (c ^^ d)

/-- CMPR with its fields M, BA, BB, BC and BD, bits 31:5 being 0 (R25). -/
def cmprWord (m a b c d : Bool) : Word :=
  place (BitVec.ofBool m) 0 ||| place (BitVec.ofBool a) 1 ||| place (BitVec.ofBool b) 2 ||| place (BitVec.ofBool c) 3 |||
    place (BitVec.ofBool d) 4

/-- `m` as the amount MATCH_CNT grows by (R88, R89). -/
def countOf (m : Bool) : Word := if m then 1#32 else 0#32

/-- R87: TRIAL_CNT or MATCH_CNT is 0xFFFFFFFF, so a compare is rejected. -/
def State.counterFull (s : State) : Bool :=
  s.trialCnt == 0xFFFFFFFF#32 || s.matchCnt == 0xFFFFFFFF#32

end Sys2Proof.Machine
end

