-- ==== Sys2Proof/Machine/Ops.lean ====
section
/-! DEFINITION. The named operations on the state: bank reads and writes, error recording and clearing (the core's whole
exception mechanism, spec/60_exceptions.md R110, R114, R115), counters and CMPR, acceptance and release of a command, the
bus's answer, free draws, and reset (spec/70_reset_and_hazards.md R124). -/

namespace Sys2Proof.Machine

/-- `bank[b]`, all 16 words (R11). -/
def State.bank (s : State) (b : BankNo) : Block := s.banks[b.toNat]'(by have := b.isLt; omega)

/-- `bank[b][w]` (R11). -/
def State.bankWord (s : State) (b : BankNo) (w : WordNo) : Word := getWord (s.bank b) w

/-- Which words of bank `b` have been written since reset (R17). -/
def State.writtenMask (s : State) (b : BankNo) : BitVec 16 :=
  s.written[b.toNat]'(by have := b.isLt; omega)

/-- `bank[b] <- v`: all 16 words (R11). -/
def State.writeBank (s : State) (b : BankNo) (v : Block) : State :=
  { s with
    banks := s.banks.set b.toNat v (by have := b.isLt; omega)
    written := s.written.set b.toNat 0xFFFF#16 (by have := b.isLt; omega) }

/-- The mask with the bit of word `w` alone. -/
def wordMask (w : WordNo) : BitVec 16 := 1#16 <<< w.toNat

/-- `bank[b][w] <- x`: one word, by the host (R33). -/
def State.writeWord (s : State) (b : BankNo) (w : WordNo) (x : Word) : State :=
  { s with
    banks := s.banks.set b.toNat (putWord (s.bank b) w x) (by have := b.isLt; omega)
    written := s.written.set b.toNat (s.writtenMask b ||| wordMask w) (by have := b.isLt; omega) }

/-- The words of `mask` in bank `b` are read: if one of them is unwritten since reset, `readUnwritten` records it, the
"fault of the model" of R17; the word read is then a free value (notes/assumptions/1.md). -/
def State.noteRead (s : State) (b : BankNo) (mask : BitVec 16) : State :=
  { s with readUnwritten := s.readUnwritten || !(mask &&& ~~~(s.writtenMask b) == 0#16) }

/-- `raise CmdError(code)`, and the recording of E_BUSY and E_BUS: the first error since the last clear is kept (R110). -/
def State.recordError (s : State) (c : ErrCode) : State :=
  { s with err := true, errCode := if s.err then s.errCode else errCodeBits c }

/-- The return from an error: ERR and ERRCODE are cleared together (R115). -/
def State.clearError (s : State) : State := { s with err := false, errCode := 0#4 }

/-- `MATCH_CNT <- v` (R22). -/
def State.setMatchCnt (s : State) (v : Word) : State := { s with matchCnt := v }

/-- `TRIAL_CNT <- v` (R23). -/
def State.setTrialCnt (s : State) (v : Word) : State := { s with trialCnt := v }

/-- `CMPR <- v` (R25). -/
def State.setCmpr (s : State) (v : Word) : State := { s with cmpr := v }

/-- What the sequencer holds: BUSY is 1 exactly when it holds a command (R19, R47). -/
def State.setInFlight (s : State) (f : Option InFlight) : State := { s with inFlight := f }

/-- Acceptance: BUSY becomes 1 with the command and the copies of its sources held by the sequencer (R47). -/
def State.accept (s : State) (f : InFlight) : State := s.setInFlight (some f)

/-- BUSY becomes 0 (R48). -/
def State.release (s : State) : State := s.setInFlight none

/-- The bus answers the host. -/
def State.respond (s : State) (r : Response) : State := { s with response := r }

/-- The moves still to come. -/
def State.setSchedule (s : State) (l : List Turn) : State := { s with schedule := l }

/-- One free value has been drawn. -/
def State.draw (s : State) : State := { s with draws := s.draws + 1 }

/-- What reset does (R124): the control registers are cleared, a command in flight is discarded with its writes never
performed, and the banks are left unspecified. -/
def State.applyReset (s : State) : State :=
  { s with
    banks := banksAfterReset s.draws
    written := Vector.replicate 8 0#16
    err := false
    errCode := 0#4
    matchCnt := 0#32
    trialCnt := 0#32
    cmpr := 0#32
    inFlight := none
    draws := s.draws + 1 }

/-- The reset input is driven (R124): reset takes effect while it is asserted and on its release; releasing a line that is
not asserted changes nothing. -/
def State.driveReset (s : State) (asserted : Bool) : State :=
  if asserted || s.inReset then { s.applyReset with inReset := asserted } else s

end Sys2Proof.Machine
end

