-- ==== Sys2Proof/Machine/Permute.lean ====
section
/-! DEFINITION. The pure functions of spec/40_permutation.md section 1 (rotations, quarter rounds, groups, rounds,
the forward and inverse schedules) and the word-wise sums of spec/41_wordwise.md. -/

namespace Sys2Proof.Machine

/-- R62: rotation left by `s` places, 1 ≤ s ≤ 31. -/
def rotl32 (x : Word) (s : Nat) : Word := (x <<< s) ||| (x >>> (32 - s))

/-- R62: rotation right by `s` places, 1 ≤ s ≤ 31. -/
def rotr32 (x : Word) (s : Nat) : Word := (x >>> s) ||| (x <<< (32 - s))

/-- The four words a quarter round works on (R64). -/
structure Quad where
  a : Word
  b : Word
  c : Word
  d : Word
deriving DecidableEq, Repr

/-- R64: the forward quarter round, its twelve steps in order. -/
def qr (t : Quad) : Quad :=
  let a := t.a + t.b
  let d := rotl32 (t.d ^^^ a) 16
  let c := t.c + d
  let b := rotl32 (t.b ^^^ c) 12
  let a := a + b
  let d := rotl32 (d ^^^ a) 8
  let c := c + d
  let b := rotl32 (b ^^^ c) 7
  ⟨a, b, c, d⟩

/-- R65: the inverse quarter round. -/
def iqr (t : Quad) : Quad :=
  let b := rotr32 t.b 7 ^^^ t.c
  let c := t.c - t.d
  let d := rotr32 t.d 8 ^^^ t.a
  let a := t.a - b
  let b := rotr32 b 12 ^^^ c
  let c := c - d
  let d := rotr32 d 16 ^^^ a
  let a := a - b
  ⟨a, b, c, d⟩

/-- The word indices (a, b, c, d) of a group (R67). -/
structure Indices where
  a : Fin 16
  b : Fin 16
  c : Fin 16
  d : Fin 16
deriving DecidableEq, Repr

/-- R67: groups 0 to 3. -/
def columns : List Indices := [⟨0, 4, 8, 12⟩, ⟨1, 5, 9, 13⟩, ⟨2, 6, 10, 14⟩, ⟨3, 7, 11, 15⟩]

/-- R67: groups 4 to 7. -/
def diagonals : List Indices := [⟨0, 5, 10, 15⟩, ⟨1, 6, 11, 12⟩, ⟨2, 7, 8, 13⟩, ⟨3, 4, 9, 14⟩]

/-- R67: `groups[G]`. -/
def groupOf (g : GroupNo) : Indices :=
  (columns ++ diagonals)[g.toNat]'(by have := g.isLt; simp [columns, diagonals]; omega)

/-- R68: `f` applied to the words of `v` at the indices `q`. -/
def applyAt (v : Block) (q : Indices) (f : Quad → Quad) : Block :=
  let y := f ⟨v[q.a], v[q.b], v[q.c], v[q.d]⟩
  (((v.set q.a y.a).set q.b y.b).set q.c y.c).set q.d y.d

/-- R68: `f` applied to group `g` of `v`. -/
def applyGroup (v : Block) (g : GroupNo) (f : Quad → Quad) : Block := applyAt v (groupOf g) f

/-- The four groups of round `i`: columns when `i` is even, diagonals when it is odd (R69, R70). -/
def roundGroups (i : Nat) : List Indices := if i % 2 = 0 then columns else diagonals

/-- R69: forward round `i`. -/
def fwdRound (v : Block) (i : Nat) : Block := (roundGroups i).foldl (fun u q => applyAt u q qr) v

/-- R70: inverse round `i`. -/
def invRound (v : Block) (i : Nat) : Block := (roundGroups i).foldl (fun u q => applyAt u q iqr) v

/-- `n` forward rounds, the first of them round `lo`. -/
def forwardN (v : Block) (lo : Nat) : Nat → Block
  | 0 => v
  | n + 1 => forwardN (fwdRound v lo) (lo + 1) n

/-- R71: the forward schedule over rounds [`lo`, `hi`). -/
def forward (v : Block) (lo hi : Nat) : Block := forwardN v lo (hi - lo)

/-- `n` inverse rounds, the last of them round `lo`. -/
def inverseN (v : Block) (lo : Nat) : Nat → Block
  | 0 => v
  | n + 1 => inverseN (invRound v (lo + n)) lo n

/-- R72: the inverse schedule over rounds [`lo`, `hi`), descending. -/
def inverse (v : Block) (lo hi : Nat) : Block := inverseN v lo (hi - lo)

/-- A block given lane by lane (R81). -/
def lanes (f : Fin 16 → Word) : Block := Vector.ofFn f

/-- The word-wise sum modulo 2^32 (R79, R82). -/
def addBlocks (x y : Block) : Block := lanes fun w => x[w] + y[w]

/-- The word-wise difference modulo 2^32 (R83). -/
def subBlocks (x y : Block) : Block := lanes fun w => x[w] - y[w]

/-- R27, R85: the four state constants, words 0 to 3 of a State. -/
def stateConst : Vector Word 4 := #v[0x61707865#32, 0x3320646e#32, 0x79622d32#32, 0x6b206574#32]

/-- R85: `v` with the four state constants in words 0 to 3. -/
def withConstants (v : Block) : Block :=
  lanes fun w => if h : w.val < 4 then stateConst[w.val] else v[w]

/-- R26: the ID register, "CC20". -/
def idWord : Word := 0x43433230#32

end Sys2Proof.Machine
end

