-- ==== Sys2Proof/Machine/Operands.lean ====
section
/-! DEFINITION. Source operands: what each command shape reads at acceptance and how the sequencer holds it
(spec/30_encoding.md R47; spec/10_state.md R17, R19; spec/00_scope.md R13). -/

namespace Sys2Proof.Machine

/-- A command in flight that has read no source. -/
def noSource (i : Instr) : InFlight where
  cmd := i
  srcA := zeroBlock
  srcB := zeroBlock
  srcK := Vector.replicate 4 0#32
  work := zeroBlock
  round := 0
  snap := zeroBlock

/-- A command that reads one whole bank. -/
def oneSource (i : Instr) (v : Block) : InFlight := { noSource i with srcA := v }

/-- A command that reads two whole banks. -/
def twoSources (i : Instr) (v u : Block) : InFlight := { noSource i with srcA := v, srcB := u }

/-- A round transform: the source is copied into the working buffer (R79, R80), and the round index set. -/
def roundJob (i : Instr) (v : Block) (round : Nat) : InFlight :=
  { noSource i with srcA := v, work := v, round := round }

/-- BLK with E = 1: as `roundJob` from round 0, with SNAP := V at once when K = 0 (R79). -/
def snapJob (i : Instr) (v : Block) (k : RoundNo) : InFlight :=
  { roundJob i v 0 with snap := if k = 0#5 then v else zeroBlock }

/-- A compare: one word of each bank (R88, R89). -/
def compareJob (i : Instr) (x0 x1 x2 x3 : Word) : InFlight := { noSource i with srcK := #v[x0, x1, x2, x3] }

/-- Words 4 to 15 of `v`, all that CONST reads (R85); 0 stands in words 0 to 3. -/
def upperWords (v : Block) : Block := lanes fun w => if w.val < 4 then 0#32 else v[w]

/-- The mask of all 16 words of a bank. -/
def allWords : BitVec 16 := 0xFFFF#16

/-- The mask of words 4 to 15 of a bank (R85). -/
def upperMask : BitVec 16 := 0xFFF0#16

/-- Acceptance of a command that reads all of bank `a`. -/
def State.issueOne (s : State) (i : Instr) (a : BankNo) : State :=
  (s.noteRead a allWords).accept (oneSource i (s.bank a))

/-- Acceptance of a command that reads all of banks `a` and `b`. -/
def State.issueTwo (s : State) (i : Instr) (a b : BankNo) : State :=
  ((s.noteRead a allWords).noteRead b allWords).accept (twoSources i (s.bank a) (s.bank b))

/-- Acceptance of a round transform of bank `a` whose round index starts at `round`. -/
def State.issueRounds (s : State) (i : Instr) (a : BankNo) (round : Nat) : State :=
  (s.noteRead a allWords).accept (roundJob i (s.bank a) round)

/-- Acceptance of BLK with E = 1. -/
def State.issueSnap (s : State) (i : Instr) (a : BankNo) (k : RoundNo) : State :=
  (s.noteRead a allWords).accept (snapJob i (s.bank a) k)

/-- Acceptance of CONST: only words 4 to 15 of bank `a` are read (R85). -/
def State.issueUpper (s : State) (i : Instr) (a : BankNo) : State :=
  (s.noteRead a upperMask).accept (oneSource i (upperWords (s.bank a)))

/-- Acceptance of CMP2: only word `w` of each bank is read (R88). -/
def State.issueCompare2 (s : State) (i : Instr) (k0 k1 : BankNo) (w : WordNo) : State :=
  ((s.noteRead k0 (wordMask w)).noteRead k1 (wordMask w)).accept
    (compareJob i (s.bankWord k0 w) (s.bankWord k1 w) 0#32 0#32)

/-- Acceptance of CMP4: only word `w` of each bank is read (R89). -/
def State.issueCompare4 (s : State) (i : Instr) (k0 k1 k2 k3 : BankNo) (w : WordNo) : State :=
  ((((s.noteRead k0 (wordMask w)).noteRead k1 (wordMask w)).noteRead k2 (wordMask w)).noteRead k3 (wordMask w)).accept
    (compareJob i (s.bankWord k0 w) (s.bankWord k1 w) (s.bankWord k2 w) (s.bankWord k3 w))

end Sys2Proof.Machine
end

