-- ==== Sys2Proof/Machine/Comparator.lean ====
section
/-! DEFINITION. The comparator family (spec/42_comparator.md R87 to R91). `exec…` makes the counter guard and accepts the
command with its sources read (R47, R87), and `commit…` is what it writes at commit (R48). -/

namespace Sys2Proof.Machine

/-- R88: CMP2; E_CNT by R87. -/
def execCmp2 (k0 k1 : BankNo) (w : WordNo) (n : BitNo) (s : State) : Host.Outcome State Fault Refusal :=
  if s.counterFull then .next (s.recordError .cnt) else .next (s.issueCompare2 (.cmp2 k0 k1 w n) k0 k1 w)

/-- R88, R89: the counters and CMPR after a compare with verdict `m` and extracted bits `a`, `b`, `c`, `d`. -/
def State.countCompare (s : State) (m a b c d : Bool) : State :=
  ((s.setTrialCnt (s.trialCnt + 1#32)).setMatchCnt (s.matchCnt + countOf m)).setCmpr (cmprWord m a b c d)

/-- R88. -/
def commitCmp2 (n : BitNo) (f : InFlight) (s : State) : State :=
  let a := bitOf f.srcK[0] n
  let b := bitOf f.srcK[1] n
  s.countCompare (verdict2 a b) a b false false

/-- R89: CMP4; E_CNT by R87. -/
def execCmp4 (k0 k1 k2 k3 : BankNo) (w : WordNo) (n : BitNo) (s : State) : Host.Outcome State Fault Refusal :=
  if s.counterFull then .next (s.recordError .cnt)
  else .next (s.issueCompare4 (.cmp4 k0 k1 k2 k3 w n) k0 k1 k2 k3 w)

/-- R89. -/
def commitCmp4 (n : BitNo) (f : InFlight) (s : State) : State :=
  let a := bitOf f.srcK[0] n
  let b := bitOf f.srcK[1] n
  let c := bitOf f.srcK[2] n
  let d := bitOf f.srcK[3] n
  s.countCompare (verdict4 a b c d) a b c d

/-- R90: CLRC; never E_CNT. -/
def execClrc (s : State) : Host.Outcome State Fault Refusal := .next (s.accept (noSource .clrc))

/-- R90: both counters and CMPR become 0. -/
def commitClrc (s : State) : State := ((s.setMatchCnt 0#32).setTrialCnt 0#32).setCmpr 0#32

/-- R91: NOP passes through acceptance and commit. -/
def execNop (s : State) : Host.Outcome State Fault Refusal := .next (s.accept (noSource .nop))

/-- R91: nothing is written. -/
def commitNop (s : State) : State := s

end Sys2Proof.Machine
end

