-- ==== Sys2Proof/Machine/Permutation.lean ====
section
/-! DEFINITION. The permutation family (spec/40_permutation.md R75 to R80). `exec…` is what the command does when its
word is written to CMD and decoded: the range check, then acceptance with the sources read (R47, R49). `round…` is one
round of its working buffer, and `commit…` is what it writes at commit (R48). -/

namespace Sys2Proof.Machine

/-- R75: ROTL; E_RANGE if N = 0. -/
def execRotl (d a : BankNo) (w : WordNo) (n : BitNo) (s : State) : Host.Outcome State Fault Refusal :=
  if n = 0#5 then .next (s.recordError .range) else .next (s.issueOne (.rotl d a w n) a)

/-- R75: word W rotated left by N, the other 15 words copied. -/
def commitRotl (d : BankNo) (w : WordNo) (n : BitNo) (f : InFlight) (s : State) : State :=
  s.writeBank d (putWord f.srcA w (rotl32 (getWord f.srcA w) n.toNat))

/-- R76: ROTR; E_RANGE if N = 0. -/
def execRotr (d a : BankNo) (w : WordNo) (n : BitNo) (s : State) : Host.Outcome State Fault Refusal :=
  if n = 0#5 then .next (s.recordError .range) else .next (s.issueOne (.rotr d a w n) a)

/-- R76: word W rotated right by N, the other 15 words copied. -/
def commitRotr (d : BankNo) (w : WordNo) (n : BitNo) (f : InFlight) (s : State) : State :=
  s.writeBank d (putWord f.srcA w (rotr32 (getWord f.srcA w) n.toNat))

/-- R77: QR. -/
def execQr (d a : BankNo) (g : GroupNo) (s : State) : Host.Outcome State Fault Refusal :=
  .next (s.issueOne (.qr d a g) a)

/-- R77: `bank[D] <- applyGroup(bank[A], G, qr)`. -/
def commitQr (d : BankNo) (g : GroupNo) (f : InFlight) (s : State) : State :=
  s.writeBank d (applyGroup f.srcA g qr)

/-- R78: IQR. -/
def execIqr (d a : BankNo) (g : GroupNo) (s : State) : Host.Outcome State Fault Refusal :=
  .next (s.issueOne (.iqr d a g) a)

/-- R78: `bank[D] <- applyGroup(bank[A], G, iqr)`. -/
def commitIqr (d : BankNo) (g : GroupNo) (f : InFlight) (s : State) : State :=
  s.writeBank d (applyGroup f.srcA g iqr)

/-- R79: BLK with E = 0. -/
def execBlk (d a : BankNo) (r : RoundNo) (fin : Bool) (s : State) : Host.Outcome State Fault Refusal :=
  .next (s.issueRounds (.blk d a r fin) a 0)

/-- R79: round `f.round` of the working buffer. -/
def roundBlk (f : InFlight) : InFlight := { f with work := fwdRound f.work f.round, round := f.round + 1 }

/-- R79: OUT, the working buffer, with the original state added word-wise when F = 1. -/
def blkOut (fin : Bool) (f : InFlight) : Block := if fin then addBlocks f.work f.srcA else f.work

/-- R79: the destination write of BLK with E = 0. -/
def commitBlk (d : BankNo) (fin : Bool) (f : InFlight) (s : State) : State := s.writeBank d (blkOut fin f)

/-- R79: BLK with E = 1; E_RANGE if K > R. -/
def execBlkSnap (d a p : BankNo) (r k : RoundNo) (fin : Bool) (s : State) : Host.Outcome State Fault Refusal :=
  if r.toNat < k.toNat then .next (s.recordError .range) else .next (s.issueSnap (.blkSnap d a p r k fin) a k)

/-- R79: round `f.round` of the working buffer, and the snapshot when it is the K-th. -/
def roundBlkSnap (k : RoundNo) (f : InFlight) : InFlight :=
  { f with
    work := fwdRound f.work f.round
    round := f.round + 1
    snap := if f.round + 1 = k.toNat then fwdRound f.work f.round else f.snap }

/-- R79: the snapshot write, then the destination write. -/
def commitBlkSnap (d p : BankNo) (fin : Bool) (f : InFlight) (s : State) : State :=
  (s.writeBank p f.snap).writeBank d (blkOut fin f)

/-- R80: INVP; E_RANGE if lo > hi. -/
def execInvp (d a : BankNo) (hi lo : RoundNo) (s : State) : Host.Outcome State Fault Refusal :=
  if hi.toNat < lo.toNat then .next (s.recordError .range) else .next (s.issueRounds (.invp d a hi lo) a hi.toNat)

/-- R80, R72: the inverse of round `f.round - 1`, in the working buffer. -/
def roundInvp (f : InFlight) : InFlight := { f with work := invRound f.work (f.round - 1), round := f.round - 1 }

/-- R80: `bank[D] <- inverse(bank[A], lo, hi)`. -/
def commitInvp (d : BankNo) (f : InFlight) (s : State) : State := s.writeBank d f.work

end Sys2Proof.Machine
end

