-- ==== Sys2Proof/Machine/Wordwise.lean ====
section
/-! DEFINITION. The word-wise family (spec/41_wordwise.md R81 to R86). `exec…` accepts the command with its sources read
(R47), and `commit…` is what it writes at commit (R48). -/

namespace Sys2Proof.Machine

/-- R82: ADD. -/
def execAdd (d a b : BankNo) (s : State) : Host.Outcome State Fault Refusal :=
  .next (s.issueTwo (.add d a b) a b)

/-- R82: `SA[w] +32 SB[w]` in every lane. -/
def commitAdd (d : BankNo) (f : InFlight) (s : State) : State := s.writeBank d (addBlocks f.srcA f.srcB)

/-- R83: SUB. -/
def execSub (d a b : BankNo) (s : State) : Host.Outcome State Fault Refusal :=
  .next (s.issueTwo (.sub d a b) a b)

/-- R83: `SA[w] -32 SB[w]` in every lane. -/
def commitSub (d : BankNo) (f : InFlight) (s : State) : State := s.writeBank d (subBlocks f.srcA f.srcB)

/-- R84: COPY. -/
def execCopy (d a : BankNo) (s : State) : Host.Outcome State Fault Refusal :=
  .next (s.issueOne (.copy d a) a)

/-- R84: `bank[D] <- bank[A]`. -/
def commitCopy (d : BankNo) (f : InFlight) (s : State) : State := s.writeBank d f.srcA

/-- R85: CONST; only words 4 to 15 of bank A are read. -/
def execConst (d a : BankNo) (s : State) : Host.Outcome State Fault Refusal :=
  .next (s.issueUpper (.const d a) a)

/-- R85: the four constants in words 0 to 3, words 4 to 15 from bank A. -/
def commitConst (d : BankNo) (f : InFlight) (s : State) : State := s.writeBank d (withConstants f.srcA)

/-- R86: XBIT. -/
def execXbit (d a : BankNo) (w : WordNo) (n : BitNo) (s : State) : Host.Outcome State Fault Refusal :=
  .next (s.issueOne (.xbit d a w n) a)

/-- R86: `V[W] ^ (1 << N)`, the other 15 words copied. -/
def commitXbit (d : BankNo) (w : WordNo) (n : BitNo) (f : InFlight) (s : State) : State :=
  s.writeBank d (putWord f.srcA w (getWord f.srcA w ^^^ (1#32 <<< n.toNat)))

end Sys2Proof.Machine
end

