-- ==== Sys2Proof/Machine/Dispatch.lean ====
section
/-! DEFINITION. One arm per command. `exec i s` is what the core does with the decoded command `i` when its word is
written to CMD while BUSY = 0 (spec/30_encoding.md R47). -/

namespace Sys2Proof.Machine

def exec (i : Instr) (s : State) : Host.Outcome State Fault Refusal :=
  match i with
  | .nop => Sys2Proof.Machine.execNop s
  | .qr d a g => Sys2Proof.Machine.execQr d a g s
  | .iqr d a g => Sys2Proof.Machine.execIqr d a g s
  | .blk d a r f => Sys2Proof.Machine.execBlk d a r f s
  | .blkSnap d a p r k f => Sys2Proof.Machine.execBlkSnap d a p r k f s
  | .invp d a hi lo => Sys2Proof.Machine.execInvp d a hi lo s
  | .add d a b => Sys2Proof.Machine.execAdd d a b s
  | .sub d a b => Sys2Proof.Machine.execSub d a b s
  | .copy d a => Sys2Proof.Machine.execCopy d a s
  | .const d a => Sys2Proof.Machine.execConst d a s
  | .xbit d a w n => Sys2Proof.Machine.execXbit d a w n s
  | .rotl d a w n => Sys2Proof.Machine.execRotl d a w n s
  | .rotr d a w n => Sys2Proof.Machine.execRotr d a w n s
  | .cmp2 k0 k1 w n => Sys2Proof.Machine.execCmp2 k0 k1 w n s
  | .cmp4 k0 k1 k2 k3 w n => Sys2Proof.Machine.execCmp4 k0 k1 k2 k3 w n s
  | .clrc => Sys2Proof.Machine.execClrc s

end Sys2Proof.Machine
end

