-- ==== Sys2Proof/Machine/Sequencer.lean ====
section
/-! DEFINITION. The sequencer (spec/10_state.md R19; spec/30_encoding.md R48): the rounds of the command in flight, its
commit as one indivisible step, and the state in which it has settled. -/

namespace Sys2Proof.Machine

/-- How many rounds the command in flight has still to do (R79, R80). -/
def roundsLeft (f : InFlight) : Nat :=
  match f.cmd with
  | .nop => 0
  | .qr _ _ _ => 0
  | .iqr _ _ _ => 0
  | .blk _ _ r _ => r.toNat - f.round
  | .blkSnap _ _ _ r _ _ => r.toNat - f.round
  | .invp _ _ _ lo => f.round - lo.toNat
  | .add _ _ _ => 0
  | .sub _ _ _ => 0
  | .copy _ _ => 0
  | .const _ _ => 0
  | .xbit _ _ _ _ => 0
  | .rotl _ _ _ _ => 0
  | .rotr _ _ _ _ => 0
  | .cmp2 _ _ _ _ => 0
  | .cmp4 _ _ _ _ _ _ => 0
  | .clrc => 0

/-- One round of the command in flight; a command without rounds stays as it is. -/
def roundStep (f : InFlight) : InFlight :=
  match f.cmd with
  | .nop => f
  | .qr _ _ _ => f
  | .iqr _ _ _ => f
  | .blk _ _ _ _ => roundBlk f
  | .blkSnap _ _ _ _ k _ => roundBlkSnap k f
  | .invp _ _ _ _ => roundInvp f
  | .add _ _ _ => f
  | .sub _ _ _ => f
  | .copy _ _ => f
  | .const _ _ => f
  | .xbit _ _ _ _ => f
  | .rotl _ _ _ _ => f
  | .rotr _ _ _ _ => f
  | .cmp2 _ _ _ _ => f
  | .cmp4 _ _ _ _ _ _ => f
  | .clrc => f

/-- The writes the command's rule lists, in the order it lists them (R48). -/
def commitWrites (f : InFlight) (s : State) : State :=
  match f.cmd with
  | .nop => commitNop s
  | .qr d _ g => commitQr d g f s
  | .iqr d _ g => commitIqr d g f s
  | .blk d _ _ fin => commitBlk d fin f s
  | .blkSnap d _ p _ _ fin => commitBlkSnap d p fin f s
  | .invp d _ _ _ => commitInvp d f s
  | .add d _ _ => commitAdd d f s
  | .sub d _ _ => commitSub d f s
  | .copy d _ => commitCopy d f s
  | .const d _ => commitConst d f s
  | .xbit d _ w n => commitXbit d w n f s
  | .rotl d _ w n => commitRotl d w n f s
  | .rotr d _ w n => commitRotr d w n f s
  | .cmp2 _ _ _ n => commitCmp2 n f s
  | .cmp4 _ _ _ _ _ n => commitCmp4 n f s
  | .clrc => commitClrc s

/-- The commit: every write and BUSY becoming 0, as one step (R48). -/
def commit (f : InFlight) (s : State) : State := (commitWrites f s).release

/-- One move of the sequencer: a round while one is left, else the commit; idle, it changes nothing (R48, R123). -/
def sequencerTurn (s : State) : State :=
  match s.inFlight with
  | none => s
  | some f => if roundsLeft f = 0 then commit f s else s.setInFlight (some (roundStep f))

/-- `n` moves of the sequencer with no host access between them. -/
def sequencerTurns : Nat → State → State
  | 0, s => s
  | n + 1, s => sequencerTurns n (sequencerTurn s)

/-- The command in flight after `n` of its rounds. -/
def roundSteps : Nat → InFlight → InFlight
  | 0, f => f
  | n + 1, f => roundSteps n (roundStep f)

/-- The state once the command in flight has done all its rounds and committed, no other agent having moved: what the host
finds when its POLL ends (R61, R128). -/
def settle (s : State) : State :=
  match s.inFlight with
  | none => s
  | some f => commit (roundSteps (roundsLeft f) f) s

end Sys2Proof.Machine
end

