-- ==== Sys2Proof/Machine/Bus.lean ====
section
/-! DEFINITION. The register window (spec/20_memory.md), presenting a command word (spec/30_encoding.md R47), and one move
of one agent (R42; spec/70_reset_and_hazards.md R124, R129, R130). -/

namespace Sys2Proof.Machine

/-- What an offset of the window names (R32). -/
inductive Reg where
  | bank (b : BankNo) (w : WordNo)
  | cmd
  | status
  | matchCnt
  | trialCnt
  | cmpr
  | id
  | const (k : BitVec 2)
  | reserved
deriving DecidableEq, Repr

/-- The register map (R32, R33), for offsets that are multiples of 4. -/
def regOf (off : BitVec 10) : Reg :=
  if off.toNat < 0x200 then .bank (off.extractLsb' 6 3) (off.extractLsb' 2 4)
  else
    match off.toNat with
    | 0x200 => .cmd
    | 0x204 => .status
    | 0x208 => .matchCnt
    | 0x20C => .trialCnt
    | 0x210 => .cmpr
    | 0x214 => .id
    | 0x220 => .const 0#2
    | 0x224 => .const 1#2
    | 0x228 => .const 2#2
    | 0x22C => .const 3#2
    | _ => .reserved

/-- The window offset of a byte address: `addr - BASE` where the window holds it (R31). -/
def windowOffset (addr : Nat) : Option (BitVec 10) :=
  if Config.base ≤ addr ∧ addr < Config.base + 0x400 then some (BitVec.ofNat 10 (addr - Config.base)) else none

/-- R37: the access is 32 bits wide and its offset is a multiple of 4. -/
def Access.wellFormed (a : Access) : Bool := a.width == .w32 && a.off.extractLsb' 0 2 == 0#2

/-- A read that returns `v`, a defined value (R130). -/
def State.answer (s : State) (v : Word) : State := s.respond (.data v)

/-- A read of a bank word, a counter or CMPR: the register's value while BUSY = 0, an unspecified value drawn anew while
BUSY = 1 (R33, R130). -/
def State.answerIdle (s : State) (v : Word) : State :=
  if s.busy then (s.answer (Config.busyRead s.draws)).draw else s.answer v

/-- Recording that the host reads a bank word, which only happens while BUSY = 0 (R33). -/
def State.noteHostRead (s : State) (b : BankNo) (w : WordNo) : State :=
  if s.busy then s else s.noteRead b (wordMask w)

/-- A well-formed read (R32 to R34). No read has a side effect on the core (R40). -/
def readReg (r : Reg) (s : State) : State :=
  match r with
  | .bank b w => (s.noteHostRead b w).answerIdle (s.bankWord b w)
  | .cmd => s.answer 0#32
  | .status => s.answer s.statusWord
  | .matchCnt => s.answerIdle s.matchCnt
  | .trialCnt => s.answerIdle s.trialCnt
  | .cmpr => s.answerIdle s.cmpr
  | .id => s.answer idWord
  | .const k => s.answer (stateConst[k.toNat]'(by have := k.isLt; omega))
  | .reserved => s.answer 0#32

/-- A write that BUSY = 1 turns away with E_BUSY, and that otherwise leaves `t` (R129). -/
def unlessBusy (s t : State) : State := if s.busy then s.recordError .busy else t

/-- A command word `v` is presented (R47): dropped with E_BUSY while BUSY = 1, rejected with the error the decoder names,
or executed. -/
def present (v : Word) (s : State) : Host.Outcome State Fault Refusal :=
  if s.busy then .next (s.recordError .busy)
  else
    match decode v with
    | .error c => .next (s.recordError c)
    | .ok i => exec i s

/-- A well-formed write (R32 to R34, R129). Writes to read-only and reserved offsets are ignored without error. -/
def writeReg (r : Reg) (v : Word) (s : State) : Host.Outcome State Fault Refusal :=
  match r with
  | .bank b w => .next (unlessBusy s (s.writeWord b w v))
  | .cmd => present v s
  | .status => .next (if v.getLsbD 1 then s.clearError else s)
  | .matchCnt => .next (unlessBusy s (s.setMatchCnt v))
  | .trialCnt => .next (unlessBusy s (s.setTrialCnt v))
  | .cmpr => .next s
  | .id => .next s
  | .const _ => .next s
  | .reserved => .next s

/-- One host access (R37, R40): E_BUS and the bus error response if it is not well formed, else the read or the write. -/
def busAccess (a : Access) (s : State) : Host.Outcome State Fault Refusal :=
  if a.wellFormed then
    match a.kind with
    | .read => .next (readReg (regOf a.off) s)
    | .write v => writeReg (regOf a.off) v (s.respond .done)
  else .next ((s.recordError .bus).respond .busError)

/-- One move of one agent. With nothing scheduled the host is silent and the sequencer moves. An access while reset is
asserted is not served (R124). -/
def takeTurn (s : State) : Host.Outcome State Fault Refusal :=
  match s.schedule with
  | [] => .next (sequencerTurn s)
  | .sequencer :: rest => .next (sequencerTurn (s.setSchedule rest))
  | .resetLine asserted :: rest => .next ((s.setSchedule rest).driveReset asserted)
  | .access a :: rest => if s.inReset then .fault .accessInReset else busAccess a (s.setSchedule rest)

/-- `MemWrite(BASE + off, 4, v)` as a move of the host (R12). -/
def memWrite (off : BitVec 10) (v : Word) : Turn := .access ⟨.write v, .w32, off⟩

/-- `MemRead(BASE + off, 4)` as a move of the host (R12). -/
def memRead (off : BitVec 10) : Turn := .access ⟨.read, .w32, off⟩

/-- The host's write of the word `v` to CMD (R47). -/
def cmdWrite (v : Word) : Turn := memWrite 0x200#10 v

end Sys2Proof.Machine
end

