-- ==== Sys2Proof/Machine/Step.lean ====
section
/-! DEFINITION. The step of the whole machine, and where it finds its next command. -/

namespace Sys2Proof.Machine

/-- One step: the next move of the schedule (R42). -/
def step (s : State) : Host.Outcome State Fault Refusal := takeTurn s

/-- `s` with the host about to write the command word whose bits are `w` to CMD: put first in the schedule, with reset
released and no command in flight, so that the next step runs it (R47; notes/assumptions/7.md). -/
def State.withFetchWord (s : State) (nbits w : Nat) : State :=
  { s with
    schedule := cmdWrite (BitVec.ofNat 32 (w % 2 ^ nbits)) :: s.schedule
    inFlight := none
    inReset := false }

end Sys2Proof.Machine
end

