-- ==== Sys2Proof/Machine/HostDuties.lean ====
section
/-! DEFINITION. The host's side, as spec/48_host_sequences.md and spec/30_encoding.md R60, R61 give it: the assembler syntax
and its pseudo-instructions, a command with its POLL, the two trials and their outcomes, the bias of a batch, the sweep and
its reports, and the configuration checks. Nothing here is part of the core; `step` does not use it. -/

namespace Sys2Proof.Machine

/-! The pseudo-instructions of R61. -/

/-- `PERM bD, bA, R`: the block transform without finalization. -/
def pseudoPerm (d a : BankNo) (r : RoundNo) : Instr := .blk d a r false
/-- `CHACHA bD, bA, R`: the block transform with finalization. -/
def pseudoChacha (d a : BankNo) (r : RoundNo) : Instr := .blk d a r true
/-- `UNDO bD, bA, R`: the inversion of rounds [0, R). -/
def pseudoUndo (d a : BankNo) (r : RoundNo) : Instr := .invp d a r 0#5
/-- `FLIP bD, w, n`: one bit flipped in place. -/
def pseudoFlip (d : BankNo) (w : WordNo) (n : BitNo) : Instr := .xbit d d w n
/-- `SEED bD`: the constants over words 0 to 3, in place. -/
def pseudoSeed (d : BankNo) : Instr := .const d d

/-! The assembler syntax of R60, with decimal numbers. -/

/-- A mnemonic with its operands, separated by commas. -/
def asmLine (op : String) (args : List String) : String := op ++ " " ++ String.intercalate ", " args
/-- A bank operand, `b0` to `b7`. -/
def asmBank (b : BankNo) : String := "b" ++ toString b.toNat
/-- The final operand `fin`, present when F = 1. -/
def asmFin (f : Bool) : List String := if f then ["fin"] else []

/-- A command in the assembler syntax of R60. -/
def asm : Instr → String
  | .nop => "NOP"
  | .qr d a g => asmLine "QR" [asmBank d, asmBank a, toString g.toNat]
  | .iqr d a g => asmLine "IQR" [asmBank d, asmBank a, toString g.toNat]
  | .blk d a r f => asmLine "BLK" ([asmBank d, asmBank a, toString r.toNat] ++ asmFin f)
  | .blkSnap d a p r k f =>
    asmLine "BLK" ([asmBank d, asmBank a, toString r.toNat, "snap " ++ asmBank p ++ "@" ++ toString k.toNat] ++ asmFin f)
  | .invp d a hi lo => asmLine "INVP" [asmBank d, asmBank a, toString lo.toNat, toString hi.toNat]
  | .add d a b => asmLine "ADD" [asmBank d, asmBank a, asmBank b]
  | .sub d a b => asmLine "SUB" [asmBank d, asmBank a, asmBank b]
  | .copy d a => asmLine "COPY" [asmBank d, asmBank a]
  | .const d a => asmLine "CONST" [asmBank d, asmBank a]
  | .xbit d a w n => asmLine "XBIT" [asmBank d, asmBank a, toString w.toNat, toString n.toNat]
  | .rotl d a w n => asmLine "ROTL" [asmBank d, asmBank a, toString w.toNat, toString n.toNat]
  | .rotr d a w n => asmLine "ROTR" [asmBank d, asmBank a, toString w.toNat, toString n.toNat]
  | .cmp2 k0 k1 w n => asmLine "CMP2" [asmBank k0, asmBank k1, toString w.toNat, toString n.toNat]
  | .cmp4 k0 k1 k2 k3 w n =>
    asmLine "CMP4" [asmBank k0, asmBank k1, asmBank k2, asmBank k3, toString w.toNat, toString n.toNat]
  | .clrc => "CLRC"

/-! Moves of the host. -/

/-- The offset of BANK[b][w] (R32). -/
def bankOffset (b : BankNo) (w : WordNo) : BitVec 10 := BitVec.ofNat 10 (0x40 * b.toNat + 4 * w.toNat)

/-- `WR bK <- V`: the bus writes of words `start` to 15 of a block to bank `b` (R93, R95). -/
def loadMoves (b : BankNo) (v : Block) (start : Nat) : List Turn :=
  ((List.finRange 16).filter fun w => decide (start ≤ w.val)).map fun w =>
    memWrite (bankOffset b (BitVec.ofNat 4 w.val)) v[w]

/-- How many rounds a command runs (R79, R80). -/
def roundsOf : Instr → Nat
  | .nop => 0
  | .qr _ _ _ => 0
  | .iqr _ _ _ => 0
  | .blk _ _ r _ => r.toNat
  | .blkSnap _ _ _ r _ _ => r.toNat
  | .invp _ _ hi lo => hi.toNat - lo.toNat
  | .add _ _ _ => 0
  | .sub _ _ _ => 0
  | .copy _ _ => 0
  | .const _ _ => 0
  | .xbit _ _ _ _ => 0
  | .rotl _ _ _ _ => 0
  | .rotr _ _ _ _ => 0
  | .cmp2 _ _ _ _ => 0
  | .cmp4 _ _ _ _ _ _ => 0
  | .clrc => 0

/-- A command on a line of its own: its CMD write, the sequencer's moves, and the STATUS read that ends the POLL (R61). -/
def commandMoves (i : Instr) : List Turn :=
  cmdWrite (encode i) :: (List.replicate (roundsOf i + 1) Turn.sequencer ++ [memRead 0x204#10])

/-- State generation: words 4 to 15 of the draw are written, then CONST inserts the constants (R95). -/
def generateMoves (b : BankNo) (drawn : Block) : List Turn := loadMoves b drawn 4 ++ commandMoves (pseudoSeed b)

/-- The commands of one differential trial on the state in bank 0 (R97, R98). -/
def diffTrial (r : RoundNo) (dw : WordNo) (db : BitNo) (ow : WordNo) (ob : BitNo) : List Instr :=
  [.xbit 1#3 0#3 dw db, pseudoChacha 2#3 0#3 r, pseudoChacha 3#3 1#3 r, .cmp2 2#3 3#3 ow ob]

/-- The commands of one PNB trial on the state in bank 0, for candidate word `f` and bit `n` (R100). -/
def pnbTrial (r k : RoundNo) (dw : WordNo) (db : BitNo) (ow : WordNo) (ob : BitNo) (f : WordNo) (n : BitNo) :
    List Instr :=
  [.xbit 1#3 0#3 dw db,
   .blkSnap 2#3 0#3 4#3 r k true,
   .blkSnap 3#3 1#3 5#3 r k true,
   .xbit 6#3 0#3 f n,
   .xbit 7#3 1#3 f n,
   .sub 6#3 2#3 6#3,
   .sub 7#3 3#3 7#3,
   .invp 6#3 6#3 r k,
   .invp 7#3 7#3 r k,
   .cmp4 4#3 5#3 6#3 7#3 ow ob]

/-- `v` with bit `n` of word `w` flipped (R97, R100). -/
def flipBit (v : Block) (w : WordNo) (n : BitNo) : Block := putWord v w (getWord v w ^^^ (1#32 <<< n.toNat))

/-- Commands one after another, each settled before the next is issued (R61, R128); a stop ends them. -/
def runCommands : List Instr → State → Host.Outcome State Fault Refusal
  | [], s => .next s
  | i :: rest, s =>
    match exec i s with
    | .next t => runCommands rest (settle t)
    | .fault r => .fault r
    | .refused r => .refused r

/-- A trial on the base state `x`: bank 0 loaded, the commands, each with its POLL, and the read of CMPR that gives the host the
trial's outcome (R98, R100). -/
def trialMoves (x : Block) (trial : List Instr) : List Turn :=
  loadMoves 0#3 x 0 ++ trial.flatMap commandMoves ++ [memRead 0x210#10]

/-- CLRC, then one trial for each state of the population (R99, R105). -/
def populationMoves (population : List Block) (trial : List Instr) : List Turn :=
  commandMoves .clrc ++ population.flatMap fun x => trialMoves x trial

/-- The candidates of a sweep over words [`wlo`, `whi`) and bits [`blo`, `bhi`), ascending (R105). -/
def sweepCandidates (wlo whi blo bhi : Nat) : List (Nat × Nat) :=
  (List.range' wlo (whi - wlo)).flatMap fun f => (List.range' blo (bhi - blo)).map fun n => (f, n)

/-! The bias reporter (R103, R104, R107), over exact rationals; the f64 rounding is the host's (spec/92_eei_decisions.md D25). -/

/-- `p`, the match probability of `m` matches in `n` trials, `n ≥ 1` (R103). -/
def matchProbability (m n : Nat) : ℚ := m / n

/-- `γ = 2p − 1` (R103). -/
def bias (m n : Nat) : ℚ := 2 * matchProbability m n - 1

/-- R104: the candidate is reported. -/
def reported (m n : Nat) (threshold : ℚ) : Prop := threshold ≤ |bias m n|

/-- R104: the linear bit index of a candidate. -/
def linearIndex (f n : Nat) : Nat := (f - 4) * 32 + n

/-! The host's parameters and their check before any trial (R8, R106). Words and bits are numbers of any size, so that those out of
range can be turned away; R and K are the 5 bits a command can carry (R7). -/

/-- The parameters of a differential trial. -/
structure TrialConfig where
  rounds : RoundNo
  diffWord : Nat
  diffBit : Nat
  outputWord : Nat
  outputBit : Nat
deriving DecidableEq, Repr

/-- The parameters of a PNB trial: those of a differential trial, and the boundary round K. -/
structure PnbConfig extends TrialConfig where
  boundary : RoundNo
deriving DecidableEq, Repr

/-- The parameters of a sweep: those of a PNB trial, the population, the candidate words [`wordLo`, `wordHi`) and bits
[`bitLo`, `bitHi`), and the threshold. -/
structure HostConfig extends PnbConfig where
  population : List Block
  wordLo : Nat
  wordHi : Nat
  bitLo : Nat
  bitHi : Nat
  threshold : ℚ
deriving DecidableEq, Repr

/-- R106 on a differential trial: the bits are in [0, 32), the words in [0, 16), and diffWord is not in [0, 4). -/
def TrialConfig.accepts (c : TrialConfig) : Bool :=
  decide (c.diffBit < 32) && decide (c.outputBit < 32) &&
    decide (c.diffWord < 16) && decide (c.outputWord < 16) && decide (4 ≤ c.diffWord)

/-- R106 on a PNB trial: also K ≤ R. -/
def PnbConfig.accepts (c : PnbConfig) : Bool := c.toTrialConfig.accepts && decide (c.boundary.toNat ≤ c.rounds.toNat)

/-- R106 on a candidate: its word is in [4, 16) and its bit in [0, 32). -/
def candidateAccepts (f i : Nat) : Bool := decide (4 ≤ f) && decide (f < 16) && decide (i < 32)

/-- R106 on a population: n is not 0. -/
def populationAccepts (population : List Block) : Bool := !population.isEmpty

/-- Every number of [`lo`, `hi`) is in [`least`, `bound`). -/
def rangeWithin (lo hi least bound : Nat) : Bool := decide (hi ≤ lo) || (decide (least ≤ lo) && decide (hi ≤ bound))

/-- R106: the host lets a sweep run only when none of the listed errors holds, for any of its candidates. -/
def hostAccepts (c : HostConfig) : Bool :=
  c.toPnbConfig.accepts && populationAccepts c.population &&
    rangeWithin c.wordLo c.wordHi 4 16 && rangeWithin c.bitLo c.bitHi 0 32

/-- The candidates of a sweep, in its order (R105). -/
def HostConfig.candidates (c : HostConfig) : List (Nat × Nat) := sweepCandidates c.wordLo c.wordHi c.bitLo c.bitHi

/-- The commands of the differential trial of an accepted configuration (R98). -/
def TrialConfig.commands (c : TrialConfig) : List Instr :=
  diffTrial c.rounds (BitVec.ofNat 4 c.diffWord) (BitVec.ofNat 5 c.diffBit) (BitVec.ofNat 4 c.outputWord)
    (BitVec.ofNat 5 c.outputBit)

/-- The commands of the PNB trial of an accepted configuration and candidate (R100). -/
def PnbConfig.commands (c : PnbConfig) (f i : Nat) : List Instr :=
  pnbTrial c.rounds c.boundary (BitVec.ofNat 4 c.diffWord) (BitVec.ofNat 5 c.diffBit) (BitVec.ofNat 4 c.outputWord)
    (BitVec.ofNat 5 c.outputBit) (BitVec.ofNat 4 f) (BitVec.ofNat 5 i)

/-- What a call of the host returns. -/
inductive HostResult (α : Type) where
  /-- R106: the configuration is rejected, and no move has been made. -/
  | configurationError
  /-- The configuration is accepted, and the moves ran to this outcome. -/
  | ran (o : Host.Outcome α Fault Refusal)
deriving Repr

/-- R106: `o` only where the check holds. -/
def ifAccepted {α : Type} (check : Bool) (o : Host.Outcome α Fault Refusal) : HostResult α :=
  if check then .ran o else .configurationError

/-! Running the host's moves on the machine, and what it reads back (R61, R98). -/

/-- `f` on the next state of `o`; a stop of `o` stands. -/
def andThen {α β : Type} (o : Host.Outcome α Fault Refusal) (f : α → Host.Outcome β Fault Refusal) :
    Host.Outcome β Fault Refusal :=
  match o with
  | .next a => f a
  | .fault r => .fault r
  | .refused r => .refused r

/-- The moves one after another, each the only one scheduled and so a step of the machine. -/
def runMoves : List Turn → State → Host.Outcome State Fault Refusal
  | [], s => .next s
  | m :: rest, s => andThen (step (s.setSchedule [m])) (runMoves rest)

/-- The word the bus answered; 0 where its answer carries none, which is so of no 32-bit read at a multiple of 4. -/
def Response.word : Response → Word
  | .none => 0#32
  | .data v => v
  | .done => 0#32
  | .busError => 0#32

/-- `RD off`: the word read, and the state after (R61). -/
def hostRead (off : BitVec 10) (s : State) : Host.Outcome (Word × State) Fault Refusal :=
  andThen (runMoves [memRead off] s) fun t => .next (t.response.word, t)

/-- A trial on the base state `x`: true where the CMPR the host reads has M = 1 (R98, R100). -/
def runTrial (x : Block) (trial : List Instr) (s : State) : Host.Outcome (Bool × State) Fault Refusal :=
  andThen (runMoves (trialMoves x trial) s) fun t => .next (t.response.word.getLsbD 0, t)

/-- CLRC, the trial once for each state of the batch, and the final MATCH_CNT and TRIAL_CNT as the host reads them
(R99, R105). -/
def countBatch (batch : List Block) (trial : List Instr) (s : State) : Host.Outcome ((Nat × Nat) × State) Fault Refusal :=
  andThen (runMoves (populationMoves batch trial) s) fun t =>
    andThen (hostRead 0x208#10 t) fun m =>
      andThen (hostRead 0x20C#10 m.2) fun n => .next ((m.1.toNat, n.1.toNat), n.2)

/-- R104: what the host reports of a candidate. -/
structure Report where
  word : Nat
  bit : Nat
  p : ℚ
  γ : ℚ
  index : Nat
deriving DecidableEq, Repr

/-- R104: the report of a candidate with `m` matches in `n` trials, where `|γ|` reaches the threshold. -/
def reportOf (f i : Nat) (threshold : ℚ) (m n : Nat) : Option Report :=
  if threshold ≤ |bias m n| then some ⟨f, i, matchProbability m n, bias m n, linearIndex f i⟩ else none

/-! The host's calls: each checks its configuration before it makes a move (R106). -/

/-- R99: `runDifferentialTrial(state, diffWord, diffBit, roundCount, outputWord, outputBit) -> bool`. -/
def runDifferentialTrial (x : Block) (c : TrialConfig) (s : State) : HostResult (Bool × State) :=
  ifAccepted c.accepts (runTrial x c.commands s)

/-- R99: `estimateBias(stateBatch, …)`: the bias of R103 on the final counters. -/
def estimateBias (batch : List Block) (c : TrialConfig) (s : State) : HostResult (ℚ × State) :=
  ifAccepted (c.accepts && populationAccepts batch)
    (andThen (countBatch batch c.commands s) fun r => .next (bias r.1.1 r.1.2, r.2))

/-- R100: the PNB trial for candidate word `f` and bit `i`, with its outcome. -/
def runPnbTrial (x : Block) (c : PnbConfig) (f i : Nat) (s : State) : HostResult (Bool × State) :=
  ifAccepted (c.accepts && candidateAccepts f i) (runTrial x (c.commands f i) s)

/-- The candidates in turn on the one population, and their reports in the same order (R105). -/
def sweepOver (c : HostConfig) : List (Nat × Nat) → State → Host.Outcome (List Report × State) Fault Refusal
  | [], s => .next ([], s)
  | (f, i) :: rest, s =>
    andThen (countBatch c.population (c.toPnbConfig.commands f i) s) fun r =>
      andThen (sweepOver c rest r.2) fun l => .next ((reportOf f i c.threshold r.1.1 r.1.2).toList ++ l.1, l.2)

/-- R105: a sweep; the whole configuration, every candidate with it, is checked before the first trial. -/
def sweep (c : HostConfig) (s : State) : HostResult (List Report × State) :=
  ifAccepted (hostAccepts c) (sweepOver c c.candidates s)

/-! The canonical defaults of R8 and R104. -/

/-- The canonical significance threshold, 0.6. -/
def canonicalThreshold : ℚ := 3 / 5
/-- The canonical differential: word 13, bit 13. -/
def canonicalDifferential : WordNo × BitNo := (13#4, 13#5)
/-- The canonical output bit: word 11, bit 0. -/
def canonicalOutput : WordNo × BitNo := (11#4, 0#5)
/-- The canonical candidates: words [4, 12), bits [0, 32). -/
def canonicalSweep : List (Nat × Nat) := sweepCandidates 4 12 0 32
/-- The configuration of a sweep with the canonical defaults, for the parameters that have none. -/
def canonicalConfig (r k : RoundNo) (population : List Block) : HostConfig where
  rounds := r
  diffWord := canonicalDifferential.1.toNat
  diffBit := canonicalDifferential.2.toNat
  outputWord := canonicalOutput.1.toNat
  outputBit := canonicalOutput.2.toNat
  boundary := k
  population := population
  wordLo := 4
  wordHi := 12
  bitLo := 0
  bitHi := 32
  threshold := canonicalThreshold

/-- R107: the counters of several cores, summed. -/
def mergeCounts (counts : List (Nat × Nat)) : Nat × Nat := ((counts.map Prod.fst).sum, (counts.map Prod.snd).sum)

end Sys2Proof.Machine
end

