-- ==== Sys2Proof/Safety.lean ====
section
/-! DEFINITION. The terms claims use: the invariant of the machine, what a command writes, and the step that stops where
R17 and R37 have the model or the host program fault. -/

namespace Sys2Proof.Safety

open Sys2Proof.Machine

/-- STATUS as R21 and R108 leave it: ERRCODE is 0 to 6, and is 0 exactly when ERR = 0. -/
def StatusOk (s : State) : Prop := s.errCode.toNat ≤ 6 ∧ (s.errCode = 0#4 ↔ s.err = false)

/-- CMPR as R25, R88 and R89 leave it: bits 31:5 are 0, and it is 0 or its M says whether BA xor BB equals BC xor BD. -/
def CmprOk (s : State) : Prop :=
  s.cmpr.toNat < 32 ∧
    (s.cmpr = 0#32 ∨
      s.cmpr.getLsbD 0 = ((s.cmpr.getLsbD 1 ^^ s.cmpr.getLsbD 2) == (s.cmpr.getLsbD 3 ^^ s.cmpr.getLsbD 4)))

/-- The command is a compare (R87). -/
def isCompare : Instr → Bool
  | .nop => false
  | .qr _ _ _ => false
  | .iqr _ _ _ => false
  | .blk _ _ _ _ => false
  | .blkSnap _ _ _ _ _ _ => false
  | .invp _ _ _ _ => false
  | .add _ _ _ => false
  | .sub _ _ _ => false
  | .copy _ _ => false
  | .const _ _ => false
  | .xbit _ _ _ _ => false
  | .rotl _ _ _ _ => false
  | .rotr _ _ _ _ => false
  | .cmp2 _ _ _ _ => true
  | .cmp4 _ _ _ _ _ _ => true
  | .clrc => false

/-- The banks a command names as destinations: D, and P for BLK with E = 1 (R15, R48). -/
def destinations : Instr → List BankNo
  | .nop => []
  | .qr d _ _ => [d]
  | .iqr d _ _ => [d]
  | .blk d _ _ _ => [d]
  | .blkSnap d _ p _ _ _ => [d, p]
  | .invp d _ _ _ => [d]
  | .add d _ _ => [d]
  | .sub d _ _ => [d]
  | .copy d _ => [d]
  | .const d _ => [d]
  | .xbit d _ _ _ => [d]
  | .rotl d _ _ _ => [d]
  | .rotr d _ _ _ => [d]
  | .cmp2 _ _ _ _ => []
  | .cmp4 _ _ _ _ _ _ => []
  | .clrc => []

/-- The command writes the counters and CMPR: CMP2, CMP4 and CLRC (R25). -/
def writesCounters (i : Instr) : Bool := isCompare i || decide (i = .clrc)

/-- The words of bank `b` that a command reads as a source (R17, R47, R85, R88, R89). -/
def sourceMask (i : Instr) (b : BankNo) : BitVec 16 :=
  let whole (a : BankNo) : BitVec 16 := if b = a then allWords else 0#16
  let one (k : BankNo) (w : WordNo) : BitVec 16 := if b = k then wordMask w else 0#16
  match i with
  | .nop => 0#16
  | .qr _ a _ => whole a
  | .iqr _ a _ => whole a
  | .blk _ a _ _ => whole a
  | .blkSnap _ a _ _ _ _ => whole a
  | .invp _ a _ _ => whole a
  | .add _ a c => whole a ||| whole c
  | .sub _ a c => whole a ||| whole c
  | .copy _ a => whole a
  | .const _ a => if b = a then upperMask else 0#16
  | .xbit _ a _ _ => whole a
  | .rotl _ a _ _ => whole a
  | .rotr _ a _ _ => whole a
  | .cmp2 k0 k1 w _ => one k0 w ||| one k1 w
  | .cmp4 k0 k1 k2 k3 w _ => one k0 w ||| one k1 w ||| one k2 w ||| one k3 w
  | .clrc => 0#16

/-- Every source word of the command has been written since reset (R17, R93). -/
def SourcesWritten (i : Instr) (s : State) : Prop :=
  ∀ b : BankNo, sourceMask i b &&& ~~~(s.writtenMask b) = 0#16

/-- The command passes every check of R49 that is left once it is decoded: its ranges, and for a compare its counters. -/
def Admissible (i : Instr) (s : State) : Prop :=
  i.WellFormed ∧ (isCompare i = true → s.counterFull = false)

/-- What the sequencer holds fits the command in flight: the working buffer is what the rounds done so far give, and the
snapshot buffer is the snapshot once K rounds are done (R19, R79, R80). -/
def JobOk (f : InFlight) : Prop :=
  match f.cmd with
  | .blk _ _ r _ => f.round ≤ r.toNat ∧ f.work = forward f.srcA 0 f.round
  | .blkSnap _ _ _ r k _ =>
    f.round ≤ r.toNat ∧ f.work = forward f.srcA 0 f.round ∧ (k.toNat ≤ f.round → f.snap = forward f.srcA 0 k.toNat)
  | .invp _ _ hi lo => lo.toNat ≤ f.round ∧ f.round ≤ hi.toNat ∧ f.work = inverse f.srcA f.round hi.toNat
  | .nop => f.round = 0
  | .qr _ _ _ => f.round = 0
  | .iqr _ _ _ => f.round = 0
  | .add _ _ _ => f.round = 0
  | .sub _ _ _ => f.round = 0
  | .copy _ _ => f.round = 0
  | .const _ _ => f.round = 0
  | .xbit _ _ _ _ => f.round = 0
  | .rotl _ _ _ _ => f.round = 0
  | .rotr _ _ _ _ => f.round = 0
  | .cmp2 _ _ _ _ => f.round = 0
  | .cmp4 _ _ _ _ _ _ => f.round = 0
  | .clrc => f.round = 0

/-- The command in flight passed its checks, its counters cannot wrap at the commit (R87), and its buffers fit it. -/
def InFlightOk (s : State) : Prop := ∀ f, s.inFlight = some f → Admissible f.cmd s ∧ JobOk f

/-- While reset is asserted the core holds its reset values (R124). -/
def ResetOk (s : State) : Prop :=
  s.inReset = true →
    s.inFlight = none ∧ s.err = false ∧ s.errCode = 0#4 ∧ s.matchCnt = 0#32 ∧ s.trialCnt = 0#32 ∧ s.cmpr = 0#32

/-- The invariant that every step keeps. -/
structure CoreInv (s : State) : Prop where
  status : StatusOk s
  cmpr : CmprOk s
  inFlight : InFlightOk s
  reset : ResetOk s

/-- The source's invariant on the counters (R24). -/
def CountsOk (s : State) : Prop := s.matchCnt.toNat ≤ s.trialCnt.toNat

/-- The move is a host write to MATCH_CNT or TRIAL_CNT (R24). -/
def writesCounterReg (t : Turn) : Bool :=
  match t with
  | .access ⟨.write _, _, off⟩ => regOf off == .matchCnt || regOf off == .trialCnt
  | .access ⟨.read, _, _⟩ => false
  | .sequencer => false
  | .resetLine _ => false

/-- The next move is an access that R37 answers with a bus error. -/
def movesMalformed (s : State) : Bool :=
  match s.schedule with
  | .access a :: _ => !a.wellFormed
  | .sequencer :: _ => false
  | .resetLine _ :: _ => false
  | [] => false

/-- What the spec calls a fault of the model or of the host program in the step from `s` to `t`: an access that gets a bus error,
whose E_BUS is recorded in `t` (R37, I14), or a command source or host read that uses a bank word nothing has written since reset
(R17, I9). -/
def strictFault (s t : State) : Option Fault :=
  if movesMalformed s then some .malformedAccess
  else if t.readUnwritten && !s.readUnwritten then some .unwrittenRead
  else none

/-- The step that stops where the spec has the model or the host program fault. `step` itself goes on there: with a free value
for an unwritten word (notes/assumptions/1.md), and with the bus error answered (notes/assumptions/8.md). -/
def strictStep (s : State) : Host.Outcome State Fault Refusal :=
  match step s with
  | .next t =>
    match strictFault s t with
    | some r => .fault r
    | none => .next t
  | .fault r => .fault r
  | .refused r => .refused r

/-- What a command's acceptance or rejection leaves as it was (R47, R110): all but the fields named in R47 and R110. -/
def SameCore (s t : State) : Prop :=
  t.banks = s.banks ∧ t.written = s.written ∧ t.matchCnt = s.matchCnt ∧ t.trialCnt = s.trialCnt ∧ t.cmpr = s.cmpr

/-- The outside world's and the model's own fields are as they were. -/
def SameWorld (s t : State) : Prop :=
  t.schedule = s.schedule ∧ t.response = s.response ∧ t.inReset = s.inReset ∧ t.draws = s.draws

end Sys2Proof.Safety
end

