-- ==== Sys2Proof/Certificates/Slice0/Obligations.lean ====
section
/-! DEFINITION. The statements for the provers. Each docstring names the rule of spec/ it comes from. `settle t` is the state
once the command in flight in `t` has done its rounds and committed, with no other agent moving. -/

open Sys2Proof Sys2Proof.Machine Sys2Proof.Safety

/-! The step. -/

/-- R47: a command word written to CMD while BUSY = 0 that decodes to `i` runs `i`; around it the step only takes the move off
the schedule and answers the bus. -/
def Obligations.StepRunsDecodedCommand : Prop :=
  ∀ (s : State) (v : Word) (rest : List Turn) (i : Instr),
    s.schedule = cmdWrite v :: rest → s.inReset = false → s.inFlight = none → decode v = .ok i →
      step s = exec i ((s.setSchedule rest).respond .done)

/-- R47: a command word that does not decode is rejected: BUSY stays 0 and only the error is recorded. That the bus answers
the write as taken is the model's, notes/assumptions/8.md. -/
def Obligations.UndecodableWordOnlyRecordsItsError : Prop :=
  ∀ (s : State) (v : Word) (rest : List Turn) (c : ErrCode),
    s.schedule = cmdWrite v :: rest → s.inReset = false → s.inFlight = none → decode v = .error c →
      step s = .next (((s.setSchedule rest).respond .done).recordError c)

/-! The encoding. -/

/-- R57: decoding the word of any command gives the command back, with every operand at every value. -/
def Obligations.DecodeOfEncode : Prop := ∀ i : Instr, decode (encode i) = .ok i

/-- R57, R58: every accepted word is the word of the command it decodes to, so no word has two spellings and no bit of it is
dropped. -/
def Obligations.EncodeOfDecode : Prop := ∀ (v : Word) (i : Instr), decode v = .ok i → encode i = v

/-- R57: a word that a row of the opcode map accepts decodes to a command of that row. -/
def Obligations.RowAcceptedWordDecodes : Prop :=
  ∀ (r : Row) (v : Word), r ∈ opcodeTable → r.accepts v = true → ∃ i, decode v = .ok i ∧ rowOf i = r

/-- R49, R58: E_OPCODE is exactly an opcode 15 to 31, and E_RSVD exactly an assigned opcode whose word no row accepts. -/
def Obligations.DecodeErrorsAreOpcodeThenReserved : Prop :=
  ∀ v : Word,
    (decode v = .error .opcode ↔ 15 ≤ (fieldOp v).toNat) ∧
    (decode v = .error .rsvd ↔ (fieldOp v).toNat ≤ 14 ∧ ∀ r ∈ opcodeTable, r.accepts v = false)

/-- The encoded examples of spec/30_encoding.md section 6. -/
def Obligations.SpecExampleWordsDecode : Prop :=
  decode 0x00000000#32 = .ok .nop ∧
  decode 0x09200000#32 = .ok (.qr 1 1 0) ∧
  decode 0x11200000#32 = .ok (.iqr 1 1 0) ∧
  decode 0x1A1283C0#32 = .ok (.blkSnap 2 0 4 20 3 true) ∧
  decode 0x19028040#32 = .ok (.blk 1 0 20 true) ∧
  decode 0x26C28300#32 = .ok (.invp 6 6 20 3) ∧
  decode 0x36580000#32 = .ok (.sub 6 2 6) ∧
  decode 0x40000000#32 = .ok (.const 0 0) ∧
  decode 0x49006B40#32 = .ok (.xbit 1 0 13 13) ∧
  decode 0x50000400#32 = .ok (.rotl 0 0 0 16) ∧
  decode 0x62605800#32 = .ok (.cmp2 2 3 11 0) ∧
  decode 0x6CBBD800#32 = .ok (.cmp4 4 5 6 7 11 0) ∧
  decode 0x70000000#32 = .ok .clrc

/-- R38: byte lane k carries bits [8k+7 : 8k], and the four lanes make up the register's value. -/
def Obligations.ByteLanesAreLittleEndian : Prop :=
  (∀ (v : Word) (k j : Nat), k < 4 → j < 8 → (byteLane v k).getLsbD j = v.getLsbD (8 * k + j)) ∧
  (∀ v : Word, wordOfLanes (byteLane v 0) (byteLane v 1) (byteLane v 2) (byteLane v 3) = v)

/-! The pure functions. -/

/-- R62: for 1 ≤ s ≤ 31 the two shifts make a circular rotation. -/
def Obligations.RotationsAreCircular : Prop :=
  ∀ (x : Word) (s : Nat), 1 ≤ s → s ≤ 31 →
    ∀ j, j < 32 →
      (rotl32 x s).getLsbD ((j + s) % 32) = x.getLsbD j ∧ (rotr32 x s).getLsbD j = x.getLsbD ((j + s) % 32)

/-- R63. -/
def Obligations.RotationsAreInverse : Prop :=
  ∀ (x : Word) (s : Nat), 1 ≤ s → s ≤ 31 → rotr32 (rotl32 x s) s = x ∧ rotl32 (rotr32 x s) s = x

/-- R66. -/
def Obligations.QuarterRoundsAreInverse : Prop :=
  (∀ t : Quad, iqr (qr t) = t) ∧ (∀ t : Quad, qr (iqr t) = t) ∧
  qr ⟨1, 2, 3, 4⟩ = ⟨0x70001003, 0x8b89b9bb, 0x07170373, 0x07100370⟩ ∧
  iqr ⟨0x70001003, 0x8b89b9bb, 0x07170373, 0x07100370⟩ = ⟨1, 2, 3, 4⟩

/-- R67: the groups by number; within each kind they are disjoint and cover all 16 words, and a diagonal is a column after row
r is rotated left by r places. -/
def Obligations.GroupTable : Prop :=
  groupOf 0 = ⟨0, 4, 8, 12⟩ ∧ groupOf 1 = ⟨1, 5, 9, 13⟩ ∧ groupOf 2 = ⟨2, 6, 10, 14⟩ ∧ groupOf 3 = ⟨3, 7, 11, 15⟩ ∧
  groupOf 4 = ⟨0, 5, 10, 15⟩ ∧ groupOf 5 = ⟨1, 6, 11, 12⟩ ∧ groupOf 6 = ⟨2, 7, 8, 13⟩ ∧ groupOf 7 = ⟨3, 4, 9, 14⟩ ∧
  (columns.flatMap fun q => [q.a, q.b, q.c, q.d]).Perm (List.finRange 16) ∧
  (diagonals.flatMap fun q => [q.a, q.b, q.c, q.d]).Perm (List.finRange 16) ∧
  ∀ k : Fin 4,
    ((columns ++ diagonals)[k.val + 4]?.map fun q => [q.a.val, q.b.val, q.c.val, q.d.val]) =
      some [k.val, 4 + (k.val + 1) % 4, 8 + (k.val + 2) % 4, 12 + (k.val + 3) % 4]

/-- R69: a round applies its four groups, columns when `i` is even and diagonals when it is odd, and their order does not
change the result. -/
def Obligations.RoundGroupsInAnyOrder : Prop :=
  ∀ (v : Block) (i : Nat) (order : List GroupNo),
    order.Perm (if i % 2 = 0 then [0, 1, 2, 3] else [4, 5, 6, 7]) →
      order.foldl (fun u g => applyGroup u g qr) v = fwdRound v i

/-- R70: the inverse round, and that it undoes the forward round. -/
def Obligations.InverseRoundUndoesRound : Prop :=
  ∀ (v : Block) (i : Nat),
    invRound v i =
      (if i % 2 = 0 then ([0, 1, 2, 3] : List GroupNo) else [4, 5, 6, 7]).foldl (fun u g => applyGroup u g iqr) v ∧
    invRound (fwdRound v i) i = v

/-- R73: inversion over a range undoes it, forward ranges compose, and inverting the last R - K rounds gives the snapshot. -/
def Obligations.PartialInversionGivesSnapshot : Prop :=
  (∀ (v : Block) (lo hi : Nat), lo ≤ hi → inverse (forward v lo hi) lo hi = v) ∧
  (∀ (v : Block) (lo m hi : Nat), lo ≤ m → m ≤ hi → forward v lo hi = forward (forward v lo m) m hi) ∧
  (∀ (v : Block) (k r : Nat), k ≤ r → inverse (forward v 0 r) k r = forward v 0 k)

/-- R101: were the guessed state the true one, the PNB arithmetic would give exactly the snapshot. -/
def Obligations.ExactGuessGivesSnapshot : Prop :=
  ∀ (x : Block) (k r : Nat), k ≤ r →
    inverse (subBlocks (addBlocks (forward x 0 r) x) x) k r = forward x 0 k

/-! What each command does: it is accepted, and its commit gives its result. -/

/-- R75, R76: word W of bank A rotated by N, the other words copied; N = 0 is left to `RangeErrorsRejected`. -/
def Obligations.RotationCommandsRotateOneWord : Prop :=
  ∀ (d a : BankNo) (w : WordNo) (n : BitNo) (s : State), s.inFlight = none → n ≠ 0#5 →
    (∃ t, exec (.rotl d a w n) s = .next t ∧ t.busy = true ∧ (settle t).busy = false ∧
      (settle t).bankWord d w = rotl32 (s.bankWord a w) n.toNat ∧
      ∀ u, u ≠ w → (settle t).bankWord d u = s.bankWord a u) ∧
    (∃ t, exec (.rotr d a w n) s = .next t ∧ t.busy = true ∧ (settle t).busy = false ∧
      (settle t).bankWord d w = rotr32 (s.bankWord a w) n.toNat ∧
      ∀ u, u ≠ w → (settle t).bankWord d u = s.bankWord a u)

/-- R77: the four words of the group become their quarter round, and the other 12 are copied. -/
def Obligations.QrCommandRunsQuarterRound : Prop :=
  ∀ (d a : BankNo) (g : GroupNo) (s : State), s.inFlight = none →
    ∃ t, exec (.qr d a g) s = .next t ∧ t.busy = true ∧ (settle t).busy = false ∧
      (let q := groupOf g
       let x := s.bank a
       let y := qr ⟨x[q.a], x[q.b], x[q.c], x[q.d]⟩
       let z := (settle t).bank d
       z[q.a] = y.a ∧ z[q.b] = y.b ∧ z[q.c] = y.c ∧ z[q.d] = y.d ∧
         ∀ w : Fin 16, w ≠ q.a → w ≠ q.b → w ≠ q.c → w ≠ q.d → z[w] = x[w])

/-- R78: as for QR, with the inverse quarter round. -/
def Obligations.IqrCommandRunsInverseQuarterRound : Prop :=
  ∀ (d a : BankNo) (g : GroupNo) (s : State), s.inFlight = none →
    ∃ t, exec (.iqr d a g) s = .next t ∧ t.busy = true ∧ (settle t).busy = false ∧
      (let q := groupOf g
       let x := s.bank a
       let y := iqr ⟨x[q.a], x[q.b], x[q.c], x[q.d]⟩
       let z := (settle t).bank d
       z[q.a] = y.a ∧ z[q.b] = y.b ∧ z[q.c] = y.c ∧ z[q.d] = y.d ∧
         ∀ w : Fin 16, w ≠ q.a → w ≠ q.b → w ≠ q.c → w ≠ q.d → z[w] = x[w])

/-- R79, E = 0: the sequencer's R rounds give forward(S, 0, R), plus S word-wise when F = 1. -/
def Obligations.BlkGivesForwardRounds : Prop :=
  ∀ (d a : BankNo) (r : RoundNo) (fin : Bool) (s : State), s.inFlight = none →
    ∃ t, exec (.blk d a r fin) s = .next t ∧ t.busy = true ∧ (settle t).busy = false ∧
      ∀ w, (settle t).bankWord d w =
        getWord (forward (s.bank a) 0 r.toNat) w + (if fin then s.bankWord a w else 0#32)

/-- R79, E = 1: as above, and the snapshot bank gets forward(S, 0, K); where P = D it ends as OUT. -/
def Obligations.BlkSnapGivesSnapshotAndOutput : Prop :=
  ∀ (d a p : BankNo) (r k : RoundNo) (fin : Bool) (s : State), s.inFlight = none → k.toNat ≤ r.toNat →
    ∃ t, exec (.blkSnap d a p r k fin) s = .next t ∧ t.busy = true ∧ (settle t).busy = false ∧
      (p ≠ d → (settle t).bank p = forward (s.bank a) 0 k.toNat) ∧
      ∀ w, (settle t).bankWord d w =
        getWord (forward (s.bank a) 0 r.toNat) w + (if fin then s.bankWord a w else 0#32)

/-- R80: bank D gets inverse(bank A, lo, hi). -/
def Obligations.InvpInvertsRounds : Prop :=
  ∀ (d a : BankNo) (hi lo : RoundNo) (s : State), s.inFlight = none → lo.toNat ≤ hi.toNat →
    ∃ t, exec (.invp d a hi lo) s = .next t ∧ t.busy = true ∧ (settle t).busy = false ∧
      (settle t).bank d = inverse (s.bank a) lo.toNat hi.toNat

/-- R79, R80, R73: `BLK bX, bY, R` then `INVP bX, bX, 0, R` leaves bank X equal to bank Y as it was, for every R. -/
def Obligations.InvpUndoesBlk : Prop :=
  ∀ (x y : BankNo) (r : RoundNo) (s : State), s.inFlight = none →
    ∃ t u, exec (.blk x y r false) s = .next t ∧ exec (.invp x x r 0) (settle t) = .next u ∧
      (settle u).bank x = s.bank y

/-- R49, R75, R76, R79, R80: K > R, lo > hi and a rotation by 0 are rejected with E_RANGE, with no effect but the error. -/
def Obligations.RangeErrorsRejected : Prop :=
  (∀ (d a p : BankNo) (r k : RoundNo) (fin : Bool) (s : State), r.toNat < k.toNat →
    exec (.blkSnap d a p r k fin) s = .next (s.recordError .range) ∧
    exec (.invp d a r k) s = .next (s.recordError .range)) ∧
  (∀ (d a : BankNo) (w : WordNo) (s : State),
    exec (.rotl d a w 0) s = .next (s.recordError .range) ∧ exec (.rotr d a w 0) s = .next (s.recordError .range))

/-- R82, R83: the sum and the difference modulo 2^32 in every lane, whichever banks coincide. -/
def Obligations.AddAndSubWordwise : Prop :=
  ∀ (d a b : BankNo) (s : State), s.inFlight = none →
    (∃ t, exec (.add d a b) s = .next t ∧ t.busy = true ∧ (settle t).busy = false ∧
      ∀ w, (settle t).bankWord d w = s.bankWord a w + s.bankWord b w) ∧
    (∃ t, exec (.sub d a b) s = .next t ∧ t.busy = true ∧ (settle t).busy = false ∧
      ∀ w, (settle t).bankWord d w = s.bankWord a w - s.bankWord b w)

/-- R84, R85: COPY copies 16 words; CONST copies words 4 to 15 and puts the state constants in words 0 to 3. -/
def Obligations.CopyAndConst : Prop :=
  ∀ (d a : BankNo) (s : State), s.inFlight = none →
    (∃ t, exec (.copy d a) s = .next t ∧ t.busy = true ∧ (settle t).busy = false ∧
      (settle t).bank d = s.bank a) ∧
    (∃ t, exec (.const d a) s = .next t ∧ t.busy = true ∧ (settle t).busy = false ∧
      (settle t).bankWord d 0 = 0x61707865#32 ∧ (settle t).bankWord d 1 = 0x3320646e#32 ∧
      (settle t).bankWord d 2 = 0x79622d32#32 ∧ (settle t).bankWord d 3 = 0x6b206574#32 ∧
      ∀ w : WordNo, 4 ≤ w.toNat → (settle t).bankWord d w = s.bankWord a w)

/-- R86: exactly the bit (W, N) differs from the source bank. -/
def Obligations.XbitFlipsOneBit : Prop :=
  ∀ (d a : BankNo) (w : WordNo) (n : BitNo) (s : State), s.inFlight = none →
    ∃ t, exec (.xbit d a w n) s = .next t ∧ t.busy = true ∧ (settle t).busy = false ∧
      ∀ (u : WordNo) (j : BitNo),
        bitOf ((settle t).bankWord d u) j = (bitOf (s.bankWord a u) j ^^ (decide (u = w) && decide (j = n)))

/-- R88: the counters grow by 1 and by the verdict, exactly, and CMPR holds the verdict and the two bits. -/
def Obligations.Cmp2CountsAndRecords : Prop :=
  ∀ (k0 k1 : BankNo) (w : WordNo) (n : BitNo) (s : State), s.inFlight = none → s.counterFull = false →
    ∃ t, exec (.cmp2 k0 k1 w n) s = .next t ∧ t.busy = true ∧ (settle t).busy = false ∧
      (let a := bitOf (s.bankWord k0 w) n
       let b := bitOf (s.bankWord k1 w) n
       let m : Bool := a == b
       let u := settle t
       u.trialCnt.toNat = s.trialCnt.toNat + 1 ∧
       u.matchCnt.toNat = s.matchCnt.toNat + m.toNat ∧
       u.cmpr.toNat = m.toNat + 2 * a.toNat + 4 * b.toNat)

/-- R89: as for CMP2, with four bits and the verdict a xor b = c xor d. -/
def Obligations.Cmp4CountsAndRecords : Prop :=
  ∀ (k0 k1 k2 k3 : BankNo) (w : WordNo) (n : BitNo) (s : State), s.inFlight = none → s.counterFull = false →
    ∃ t, exec (.cmp4 k0 k1 k2 k3 w n) s = .next t ∧ t.busy = true ∧ (settle t).busy = false ∧
      (let a := bitOf (s.bankWord k0 w) n
       let b := bitOf (s.bankWord k1 w) n
       let c := bitOf (s.bankWord k2 w) n
       let d := bitOf (s.bankWord k3 w) n
       let m : Bool := (a ^^ b) == (c ^^ d)
       let u := settle t
       u.trialCnt.toNat = s.trialCnt.toNat + 1 ∧
       u.matchCnt.toNat = s.matchCnt.toNat + m.toNat ∧
       u.cmpr.toNat = m.toNat + 2 * a.toNat + 4 * b.toNat + 8 * c.toNat + 16 * d.toNat)

/-- R87: a compare while a counter is 0xFFFFFFFF is rejected with E_CNT before anything is read. -/
def Obligations.FullCounterRejectsCompares : Prop :=
  ∀ (k0 k1 k2 k3 : BankNo) (w : WordNo) (n : BitNo) (s : State),
    (s.trialCnt = 0xFFFFFFFF#32 ∨ s.matchCnt = 0xFFFFFFFF#32) →
      exec (.cmp2 k0 k1 w n) s = .next (s.recordError .cnt) ∧
      exec (.cmp4 k0 k1 k2 k3 w n) s = .next (s.recordError .cnt)

/-- R90, R91: CLRC clears both counters and CMPR, whatever they hold, and leaves all else; NOP leaves every register. -/
def Obligations.ClrcAndNop : Prop :=
  ∀ s : State, s.inFlight = none →
    (∃ t, exec .clrc s = .next t ∧ t.busy = true ∧
      settle t = ((s.setMatchCnt 0#32).setTrialCnt 0#32).setCmpr 0#32) ∧
    (∃ t, exec .nop s = .next t ∧ t.busy = true ∧ settle t = s)

/-! Acceptance, commit and frames, for every command. -/

/-- R47, R49, R110: an admissible command is accepted, and BUSY, the sequencer's hidden state and the record of unwritten
sources are all that changes; any other command is rejected and only the error is recorded. The clause on `readUnwritten` is
the model's choice, notes/assumptions/1.md. -/
def Obligations.AcceptedOrRejected : Prop :=
  ∀ (i : Instr) (s : State),
    (Admissible i s → ∃ t f, exec i s = .next t ∧ t.inFlight = some f ∧ f.cmd = i ∧ JobOk f ∧
      SameCore s t ∧ SameWorld s t ∧ t.err = s.err ∧ t.errCode = s.errCode ∧
      (t.readUnwritten = true ↔ s.readUnwritten = true ∨ ¬ SourcesWritten i s)) ∧
    (¬ Admissible i s → exec i s = .next (s.recordError (if i.inRange then .cnt else .range)))

/-- R15, R35, R48: once a command has settled, every bank it does not name as a destination is as it was, its destinations are
written in full, only CMP2, CMP4 and CLRC have touched the counters and CMPR, and STATUS shows no new error. The clauses on
the fields of the outside world and on `readUnwritten` are the model's, notes/assumptions/1.md and 6.md. -/
def Obligations.CommandsWriteOnlyWhatTheyName : Prop :=
  ∀ (i : Instr) (s t : State), s.inFlight = none → Admissible i s → exec i s = .next t →
    (∀ b, b ∉ destinations i → (settle t).bank b = s.bank b ∧ (settle t).writtenMask b = s.writtenMask b) ∧
    (∀ b, b ∈ destinations i → (settle t).writtenMask b = allWords) ∧
    (writesCounters i = false →
      (settle t).matchCnt = s.matchCnt ∧ (settle t).trialCnt = s.trialCnt ∧ (settle t).cmpr = s.cmpr) ∧
    (settle t).err = s.err ∧ (settle t).errCode = s.errCode ∧ SameWorld s (settle t) ∧
    (settle t).readUnwritten = t.readUnwritten

/-- R48, R123, R132: the command in flight stays busy with the core unchanged while its rounds run, and commits at the next
move of the sequencer after the last of them; idle, a move of the sequencer changes nothing. That a command takes one move for
each round and one for its commit, and that the sequencer moves when nothing is scheduled, is the model's choice,
notes/assumptions/3.md and 6.md. -/
def Obligations.CommandCommitsAfterItsRounds : Prop :=
  (∀ s : State,
    (s.schedule = [] → step s = .next (sequencerTurn s)) ∧
    (∀ rest, s.schedule = .sequencer :: rest → step s = .next (sequencerTurn (s.setSchedule rest))) ∧
    (s.inFlight = none → sequencerTurn s = s)) ∧
  ∀ (s : State) (f : InFlight), s.inFlight = some f →
    (∀ n, n ≤ roundsLeft f → (sequencerTurns n s).busy = true ∧ SameCore s (sequencerTurns n s) ∧
      (sequencerTurns n s).err = s.err ∧ (sequencerTurns n s).errCode = s.errCode) ∧
    sequencerTurns (roundsLeft f + 1) s = settle s ∧ (settle s).busy = false

/-- R132, R133: in a state that meets the invariant, 32 moves of the sequencer end any command. The bound 32 is the model's,
notes/assumptions/3.md and 5.md. -/
def Obligations.EveryCommandCommits : Prop := ∀ s : State, CoreInv s → (sequencerTurns 32 s).busy = false

/-- R48: whatever accesses the host makes while BUSY = 1, between any two moves of the sequencer, the command in flight and
what it will write are not disturbed. That the machine goes on after an access that R37 answers with a bus error is the
model's choice, notes/assumptions/8.md. -/
def Obligations.BusyAccessDisturbsNothing : Prop :=
  ∀ (s : State) (a : Access) (rest : List Turn),
    s.schedule = .access a :: rest → s.inReset = false → s.busy = true →
      ∃ t, step s = .next t ∧ SameCore s t ∧ t.inFlight = s.inFlight ∧ t.schedule = rest

/-- R113, R127: a STATUS read taken before the commit sees BUSY = 1, and one taken after it sees BUSY = 0. -/
def Obligations.StatusReadBeforeAndAfterCommit : Prop :=
  ∀ (s : State) (f : InFlight) (rest : List Turn),
    s.inFlight = some f → roundsLeft f = 0 → s.inReset = false →
      (∃ t v, step (s.setSchedule (memRead 0x204 :: .sequencer :: rest)) = .next t ∧
        t.response = .data v ∧ v.getLsbD 0 = true ∧ t.schedule = .sequencer :: rest) ∧
      (∃ t u v, step (s.setSchedule (.sequencer :: memRead 0x204 :: rest)) = .next t ∧ step t = .next u ∧
        u.response = .data v ∧ v.getLsbD 0 = false ∧ u.schedule = rest)

/-! The register window. -/

/-- R31, R32: BASE is a multiple of 0x400, the window is the 0x400 bytes from it, and the register map of its offsets that are
multiples of 4. -/
def Obligations.WindowAndRegisterMap : Prop :=
  Config.base % 0x400 = 0 ∧
  (∀ off : BitVec 10, windowOffset (Config.base + off.toNat) = some off) ∧
  (∀ addr : Nat, addr < Config.base ∨ Config.base + 0x400 ≤ addr → windowOffset addr = none) ∧
  (∀ (b : BankNo) (w : WordNo), regOf (bankOffset b w) = .bank b w ∧ (bankOffset b w).toNat = 0x40 * b.toNat + 4 * w.toNat) ∧
  regOf 0x200 = .cmd ∧ regOf 0x204 = .status ∧ regOf 0x208 = .matchCnt ∧ regOf 0x20C = .trialCnt ∧ regOf 0x210 = .cmpr ∧
  regOf 0x214 = .id ∧ regOf 0x218 = .reserved ∧ regOf 0x21C = .reserved ∧
  regOf 0x220 = .const 0 ∧ regOf 0x224 = .const 1 ∧ regOf 0x228 = .const 2 ∧ regOf 0x22C = .const 3 ∧
  (∀ off : BitVec 10, 0x230 ≤ off.toNat → regOf off = .reserved)

/-- R26, R27: ID and CONST0 to CONST3 read their constants, BUSY or not. -/
def Obligations.ConstantRegistersRead : Prop :=
  ∀ (s : State) (rest : List Turn), s.inReset = false →
    (∀ off v, (off, v) ∈ ([(0x214, 0x43433230), (0x220, 0x61707865), (0x224, 0x3320646e), (0x228, 0x79622d32),
        (0x22C, 0x6b206574)] : List (BitVec 10 × Word)) →
      step (s.setSchedule (memRead off :: rest)) = .next ((s.setSchedule rest).respond (.data v)))

/-- R34: reads of reserved offsets and of CMD give 0; writes to reserved offsets and to read-only registers are ignored. That
the bus answers an ignored write as taken is the model's, notes/assumptions/8.md. -/
def Obligations.ReservedAndReadOnly : Prop :=
  ∀ (s : State) (rest : List Turn) (off : BitVec 10) (v : Word), s.inReset = false → off.toNat % 4 = 0 →
    (regOf off = .reserved ∨ regOf off = .cmd →
      step (s.setSchedule (memRead off :: rest)) = .next ((s.setSchedule rest).respond (.data 0))) ∧
    (regOf off = .reserved ∨ regOf off = .cmpr ∨ regOf off = .id ∨ (∃ k, regOf off = .const k) →
      step (s.setSchedule (memWrite off v :: rest)) = .next ((s.setSchedule rest).respond .done))

/-- R33: with BUSY = 0, in any state, a read of a bank word returns that word, whoever wrote it, and changes no register; a
word the host has just written reads back, and its write changes no other word. The clause on `readUnwritten`, and that a word
nothing has written reads as the value it holds, are the model's, notes/assumptions/1.md. -/
def Obligations.BankWordReadsBack : Prop :=
  ∀ (s : State) (rest : List Turn) (b : BankNo) (w : WordNo) (v : Word), s.inReset = false → s.inFlight = none →
    ∃ t u, step (s.setSchedule (memWrite (bankOffset b w) v :: memRead (bankOffset b w) :: rest)) = .next t ∧
      step t = .next u ∧ u.response = .data v ∧ u.readUnwritten = s.readUnwritten ∧
      (∀ b' w', ¬ (b' = b ∧ w' = w) → u.bankWord b' w' = s.bankWord b' w') ∧
      ∃ r, step (s.setSchedule (memRead (bankOffset b w) :: rest)) = .next r ∧ r.response = .data (s.bankWord b w) ∧
        SameCore s r ∧ r.err = s.err ∧ r.errCode = s.errCode ∧ r.inFlight = none ∧ r.schedule = rest

/-- R22, R23, R25: with BUSY = 0 the counters read and take any value the host writes, and CMPR reads. -/
def Obligations.CountersReadAndWrite : Prop :=
  ∀ (s : State) (rest : List Turn) (v : Word), s.inReset = false → s.inFlight = none →
    step (s.setSchedule (memRead 0x208 :: rest)) = .next ((s.setSchedule rest).respond (.data s.matchCnt)) ∧
    step (s.setSchedule (memRead 0x20C :: rest)) = .next ((s.setSchedule rest).respond (.data s.trialCnt)) ∧
    step (s.setSchedule (memRead 0x210 :: rest)) = .next ((s.setSchedule rest).respond (.data s.cmpr)) ∧
    step (s.setSchedule (memWrite 0x208 v :: rest)) = .next (((s.setSchedule rest).respond .done).setMatchCnt v) ∧
    step (s.setSchedule (memWrite 0x20C v :: rest)) = .next (((s.setSchedule rest).respond .done).setTrialCnt v)

/-- R129: while BUSY = 1, writes to CMD, bank words and counters are dropped with E_BUSY, a STATUS write is honoured, and
writes to read-only and reserved offsets are ignored. That the bus answers a dropped or ignored write as taken is the model's,
notes/assumptions/8.md. -/
def Obligations.BusyWrites : Prop :=
  ∀ (s : State) (rest : List Turn) (off : BitVec 10) (v : Word),
    s.inReset = false → s.busy = true → off.toNat % 4 = 0 →
      step (s.setSchedule (memWrite off v :: rest)) = .next (
        let u := (s.setSchedule rest).respond .done
        match regOf off with
        | .bank _ _ => u.recordError .busy
        | .cmd => u.recordError .busy
        | .matchCnt => u.recordError .busy
        | .trialCnt => u.recordError .busy
        | .status => if v.getLsbD 1 then u.clearError else u
        | .cmpr => u
        | .id => u
        | .const _ => u
        | .reserved => u)

/-- R130: while BUSY = 1, a read of a bank word, a counter or CMPR takes a fresh free value, and a read of any other register
returns its defined value. The form of the free value, `Config.busyRead` of the counter of draws, which then advances, is the
model's choice, notes/assumptions/2.md. -/
def Obligations.BusyReads : Prop :=
  ∀ (s : State) (rest : List Turn) (off : BitVec 10),
    s.inReset = false → s.busy = true → off.toNat % 4 = 0 →
      step (s.setSchedule (memRead off :: rest)) = .next (
        let u := s.setSchedule rest
        match regOf off with
        | .bank _ _ => (u.respond (.data (Config.busyRead s.draws))).draw
        | .matchCnt => (u.respond (.data (Config.busyRead s.draws))).draw
        | .trialCnt => (u.respond (.data (Config.busyRead s.draws))).draw
        | .cmpr => (u.respond (.data (Config.busyRead s.draws))).draw
        | .status => u.respond (.data s.statusWord)
        | .id => u.respond (.data 0x43433230#32)
        | .const k => u.respond (.data (stateConst[k.toNat]'(by have := k.isLt; omega)))
        | .cmd => u.respond (.data 0#32)
        | .reserved => u.respond (.data 0#32))

/-- R40: no read of the window, well formed, changes the core. -/
def Obligations.ReadsHaveNoSideEffect : Prop :=
  ∀ (s : State) (rest : List Turn) (off : BitVec 10), s.inReset = false → off.toNat % 4 = 0 →
    ∃ t v, step (s.setSchedule (memRead off :: rest)) = .next t ∧ t.response = .data v ∧
      SameCore s t ∧ t.err = s.err ∧ t.errCode = s.errCode ∧ t.inFlight = s.inFlight

/-- R37: an access that is not 32 bits wide or not aligned gets the bus error response and records E_BUS, and changes nothing
else, BUSY or not; in the strict reading it is a fault of the host program, which stops there. That `step` goes on, and that
the fault is a stop of `strictStep`, is the model's choice, notes/assumptions/8.md. -/
def Obligations.MalformedAccessIsBusError : Prop :=
  ∀ (s : State) (rest : List Turn) (a : Access), s.inReset = false → a.width ≠ .w32 ∨ a.off.toNat % 4 ≠ 0 →
    step (s.setSchedule (.access a :: rest)) = .next (((s.setSchedule rest).recordError .bus).respond .busError) ∧
    strictStep (s.setSchedule (.access a :: rest)) = .fault .malformedAccess

/-! Errors and STATUS. -/

/-- R108, R110: the codes of the six errors; the first error since the last clear is kept, and recording an error changes ERR
and ERRCODE alone. -/
def Obligations.FirstErrorIsKept : Prop :=
  (errCodeBits .opcode = 1#4 ∧ errCodeBits .rsvd = 2#4 ∧ errCodeBits .range = 3#4 ∧ errCodeBits .busy = 4#4 ∧
    errCodeBits .cnt = 5#4 ∧ errCodeBits .bus = 6#4) ∧
  ∀ (s : State) (c : ErrCode),
    (s.err = false → s.recordError c = { s with err := true, errCode := errCodeBits c }) ∧
    (s.err = true → s.recordError c = s)

/-- R21, R115: a STATUS write with bit 1 set clears ERR and ERRCODE and nothing else, BUSY or not; one with bit 1 clear
changes nothing. -/
def Obligations.StatusWriteClearsErrors : Prop :=
  ∀ (s : State) (rest : List Turn) (v : Word), s.inReset = false →
    (v.getLsbD 1 = true → step (s.setSchedule (memWrite 0x204 v :: rest)) =
      .next ({ (s.setSchedule rest).respond .done with err := false, errCode := 0#4 })) ∧
    (v.getLsbD 1 = false → step (s.setSchedule (memWrite 0x204 v :: rest)) = .next ((s.setSchedule rest).respond .done))

/-- R21: the fields of STATUS as the host reads them. -/
def Obligations.StatusFields : Prop :=
  ∀ (s : State) (rest : List Turn), s.inReset = false →
    ∃ v : Word, step (s.setSchedule (memRead 0x204 :: rest)) = .next ((s.setSchedule rest).respond (.data v)) ∧
      v.toNat = s.busy.toNat + 2 * s.err.toNat + 16 * s.errCode.toNat

/-! Reset. -/

/-- R30: the state after reset. The bank words are unwritten; what they hold is left open. -/
def Obligations.ResetState : Prop :=
  State.reset.statusWord = 0#32 ∧ State.reset.err = false ∧ State.reset.errCode = 0#4 ∧ State.reset.matchCnt = 0#32 ∧
  State.reset.trialCnt = 0#32 ∧ State.reset.cmpr = 0#32 ∧ State.reset.inFlight = none ∧
  idWord = 0x43433230#32 ∧ stateConst = #v[0x61707865#32, 0x3320646e#32, 0x79622d32#32, 0x6b206574#32] ∧
  ∀ b, State.reset.writtenMask b = 0#16

/-- R124: asserting the reset input, in any state, and releasing it while it is asserted, leave the control registers cleared,
the command in flight discarded and every bank word unwritten; a bus access while it is asserted is not served: the machine
has no next state. The name of that stop is the model's choice, notes/assumptions/9.md, and so is how the line is driven,
notes/assumptions/10.md. -/
def Obligations.ResetInput : Prop :=
  ∀ (s : State) (rest : List Turn),
    (∀ asserted : Bool, asserted = true ∨ s.inReset = true →
      ∃ t, step (s.setSchedule (.resetLine asserted :: rest)) = .next t ∧ t.inReset = asserted ∧ t.schedule = rest ∧
        t.busy = false ∧ t.err = false ∧ t.errCode = 0#4 ∧ t.matchCnt = 0#32 ∧ t.trialCnt = 0#32 ∧ t.cmpr = 0#32 ∧
        t.inFlight = none ∧ ∀ b, t.writtenMask b = 0#16) ∧
    (∀ a : Access, s.inReset = true → step (s.setSchedule (.access a :: rest)) = .fault .accessInReset)

/-! Invariants and whole-machine rules. -/

/-- The invariant holds right after reset. -/
def Obligations.InvAtReset : Prop := CoreInv State.reset

/-- Every step keeps the invariant: STATUS and CMPR stay legal, the command in flight stays valid with its buffers what its
rounds so far give, and reset holds the reset values (R19, R21, R25, R87, R108, R124). -/
def Obligations.StepKeepsInv : Prop := ∀ s t : State, CoreInv s → step s = .next t → CoreInv t

/-- R24: MATCH_CNT ≤ TRIAL_CNT is kept by every step that is not a host write to a counter. -/
def Obligations.CountsStayOrdered : Prop :=
  ∀ s t : State, CoreInv s → CountsOk s → (∀ m ∈ s.schedule.head?, writesCounterReg m = false) → step s = .next t → CountsOk t

/-- R25: outside reset, CMPR changes only by the commit of a CMP2, CMP4 or CLRC. -/
def Obligations.OnlyComparesAndClrcWriteCmpr : Prop :=
  ∀ s t : State, step s = .next t → t.cmpr ≠ s.cmpr →
    (∃ a, s.schedule.head? = some (.resetLine a)) ∨ (∃ f, s.inFlight = some f ∧ writesCounters f.cmd = true ∧ t.busy = false)

/-- R15, R16, R35: outside reset, a bank changes only by the commit of a command that names it as a destination, or by a host
write to one of its words while BUSY = 0. -/
def Obligations.BanksChangeOnlyByCommitOrHostWrite : Prop :=
  ∀ (s t : State) (b : BankNo), step s = .next t → t.bank b ≠ s.bank b →
    (∃ a, s.schedule.head? = some (.resetLine a)) ∨
    (∃ f, s.inFlight = some f ∧ b ∈ destinations f.cmd ∧ t.busy = false) ∨
    (∃ a v w, s.schedule.head? = some (.access ⟨.write v, .w32, a⟩) ∧ regOf a = .bank b w ∧ s.busy = false)

/-- R17, R33, R47: in the reading of the spec in which the model stops there (`strictStep`, notes/assumptions/1.md), a command
with an unwritten source word and a host read of an unwritten bank word fault; with every source written the strict step is
the step. -/
def Obligations.StrictStepFaultsOnUnwrittenWords : Prop :=
  ∀ (s : State) (rest : List Turn), s.inReset = false → s.inFlight = none → s.readUnwritten = false →
    (∀ (v : Word) (i : Instr), s.schedule = cmdWrite v :: rest → decode v = .ok i → Admissible i s →
      (¬ SourcesWritten i s → strictStep s = .fault .unwrittenRead) ∧ (SourcesWritten i s → strictStep s = step s)) ∧
    (∀ (b : BankNo) (w : WordNo), s.schedule = memRead (bankOffset b w) :: rest →
      ((s.writtenMask b).getLsbD w.toNat = false → strictStep s = .fault .unwrittenRead) ∧
      ((s.writtenMask b).getLsbD w.toNat = true → strictStep s = step s))

/-! The host's trials. -/

/-- R97, R100: the ten commands of a PNB trial complete on any idle core with counters below their end, leave the four states
the rule names in banks 4 to 7 and the base state in bank 0, and match where X3 xor X'3 equals XT xor XT' at the output bit.
That `settle` stands for the POLL of each command is the model's, notes/assumptions/14.md, and so is that bank 0 need not have
been loaded, notes/assumptions/1.md. -/
def Obligations.PnbTrialComparesTheFourStates : Prop :=
  ∀ (r k : RoundNo) (dw : WordNo) (db : BitNo) (ow : WordNo) (ob : BitNo) (f : WordNo) (n : BitNo) (s : State),
    s.inFlight = none → s.counterFull = false → k.toNat ≤ r.toNat →
      ∃ t, runCommands (pnbTrial r k dw db ow ob f n) s = .next t ∧ t.busy = false ∧
        (let x := s.bank 0
         let x' := flipBit x dw db
         let guess (v : Block) := subBlocks (addBlocks (forward v 0 r.toNat) v) (flipBit v f n)
         let xt := inverse (guess x) k.toNat r.toNat
         let xt' := inverse (guess x') k.toNat r.toNat
         t.bank 0 = x ∧ t.bank 4 = forward x 0 k.toNat ∧ t.bank 5 = forward x' 0 k.toNat ∧ t.bank 6 = xt ∧ t.bank 7 = xt' ∧
           (let m : Bool := (bitOf (t.bankWord 4 ow) ob ^^ bitOf (t.bankWord 5 ow) ob) ==
              (bitOf (t.bankWord 6 ow) ob ^^ bitOf (t.bankWord 7 ow) ob)
            t.cmpr.getLsbD 0 = m ∧ t.matchCnt.toNat = s.matchCnt.toNat + m.toNat ∧
              t.trialCnt.toNat = s.trialCnt.toNat + 1))

/-- R102: with K = R, every trial whose output word is not the candidate's, or whose output bit is at or below the
candidate's, matches. That `settle` stands for the POLL of each command is the model's, notes/assumptions/14.md, and so is
that bank 0 need not have been loaded, notes/assumptions/1.md. -/
def Obligations.PnbTrialWithoutInversionMatches : Prop :=
  ∀ (r : RoundNo) (dw : WordNo) (db : BitNo) (ow : WordNo) (ob : BitNo) (f : WordNo) (n : BitNo) (s : State),
    s.inFlight = none → s.counterFull = false → ow ≠ f ∨ (ow = f ∧ ob.toNat ≤ n.toNat) →
      ∃ t, runCommands (pnbTrial r r dw db ow ob f n) s = .next t ∧ t.cmpr.getLsbD 0 = true ∧
        t.matchCnt.toNat = s.matchCnt.toNat + 1 ∧ t.trialCnt.toNat = s.trialCnt.toNat + 1

/-- R103: p and γ as the counters give them; p is in [0, 1] and γ in [-1, 1], with γ = 1 exactly when p = 1 and γ = -1 exactly
when p = 0. -/
def Obligations.BiasRange : Prop :=
  ∀ m n : Nat, 1 ≤ n → m ≤ n →
    matchProbability m n = (m : ℚ) / (n : ℚ) ∧ bias m n = 2 * matchProbability m n - 1 ∧
    0 ≤ matchProbability m n ∧ matchProbability m n ≤ 1 ∧ -1 ≤ bias m n ∧ bias m n ≤ 1 ∧
    (bias m n = 1 ↔ matchProbability m n = 1) ∧ (bias m n = -1 ↔ matchProbability m n = 0)
end

