-- ==== Sys2Proof/Laws/State.lean ====
section
/-! SUPPORT. One lemma per field per operation of Machine/Ops.lean (and of the compare's counter update and the bus's
answer), so that no later proof unfolds a record update; and BUSY and the banks seen through the operations that do not
touch them. -/

namespace Sys2Proof.Machine

variable (s : State)

@[simp] theorem State.writeBank_err (b : BankNo) (v : Block) : (s.writeBank b v).err = s.err := rfl
@[simp] theorem State.writeBank_errCode (b : BankNo) (v : Block) : (s.writeBank b v).errCode = s.errCode := rfl
@[simp] theorem State.writeBank_matchCnt (b : BankNo) (v : Block) : (s.writeBank b v).matchCnt = s.matchCnt := rfl
@[simp] theorem State.writeBank_trialCnt (b : BankNo) (v : Block) : (s.writeBank b v).trialCnt = s.trialCnt := rfl
@[simp] theorem State.writeBank_cmpr (b : BankNo) (v : Block) : (s.writeBank b v).cmpr = s.cmpr := rfl
@[simp] theorem State.writeBank_inFlight (b : BankNo) (v : Block) : (s.writeBank b v).inFlight = s.inFlight := rfl
@[simp] theorem State.writeBank_inReset (b : BankNo) (v : Block) : (s.writeBank b v).inReset = s.inReset := rfl
@[simp] theorem State.writeBank_schedule (b : BankNo) (v : Block) : (s.writeBank b v).schedule = s.schedule := rfl
@[simp] theorem State.writeBank_response (b : BankNo) (v : Block) : (s.writeBank b v).response = s.response := rfl
@[simp] theorem State.writeBank_draws (b : BankNo) (v : Block) : (s.writeBank b v).draws = s.draws := rfl
@[simp] theorem State.writeBank_readUnwritten (b : BankNo) (v : Block) : (s.writeBank b v).readUnwritten = s.readUnwritten := rfl
@[simp] theorem State.writeBank_busy (b : BankNo) (v : Block) : (s.writeBank b v).busy = s.busy := rfl
@[simp] theorem State.writeBank_counterFull (b : BankNo) (v : Block) : (s.writeBank b v).counterFull = s.counterFull := rfl

@[simp] theorem State.writeWord_err (b : BankNo) (w : WordNo) (x : Word) : (s.writeWord b w x).err = s.err := rfl
@[simp] theorem State.writeWord_errCode (b : BankNo) (w : WordNo) (x : Word) : (s.writeWord b w x).errCode = s.errCode := rfl
@[simp] theorem State.writeWord_matchCnt (b : BankNo) (w : WordNo) (x : Word) : (s.writeWord b w x).matchCnt = s.matchCnt := rfl
@[simp] theorem State.writeWord_trialCnt (b : BankNo) (w : WordNo) (x : Word) : (s.writeWord b w x).trialCnt = s.trialCnt := rfl
@[simp] theorem State.writeWord_cmpr (b : BankNo) (w : WordNo) (x : Word) : (s.writeWord b w x).cmpr = s.cmpr := rfl
@[simp] theorem State.writeWord_inFlight (b : BankNo) (w : WordNo) (x : Word) : (s.writeWord b w x).inFlight = s.inFlight := rfl
@[simp] theorem State.writeWord_inReset (b : BankNo) (w : WordNo) (x : Word) : (s.writeWord b w x).inReset = s.inReset := rfl
@[simp] theorem State.writeWord_schedule (b : BankNo) (w : WordNo) (x : Word) : (s.writeWord b w x).schedule = s.schedule := rfl
@[simp] theorem State.writeWord_response (b : BankNo) (w : WordNo) (x : Word) : (s.writeWord b w x).response = s.response := rfl
@[simp] theorem State.writeWord_draws (b : BankNo) (w : WordNo) (x : Word) : (s.writeWord b w x).draws = s.draws := rfl
@[simp] theorem State.writeWord_readUnwritten (b : BankNo) (w : WordNo) (x : Word) : (s.writeWord b w x).readUnwritten = s.readUnwritten := rfl
@[simp] theorem State.writeWord_busy (b : BankNo) (w : WordNo) (x : Word) : (s.writeWord b w x).busy = s.busy := rfl
@[simp] theorem State.writeWord_counterFull (b : BankNo) (w : WordNo) (x : Word) : (s.writeWord b w x).counterFull = s.counterFull := rfl

@[simp] theorem State.noteRead_banks (b : BankNo) (m : BitVec 16) : (s.noteRead b m).banks = s.banks := rfl
@[simp] theorem State.noteRead_written (b : BankNo) (m : BitVec 16) : (s.noteRead b m).written = s.written := rfl
@[simp] theorem State.noteRead_err (b : BankNo) (m : BitVec 16) : (s.noteRead b m).err = s.err := rfl
@[simp] theorem State.noteRead_errCode (b : BankNo) (m : BitVec 16) : (s.noteRead b m).errCode = s.errCode := rfl
@[simp] theorem State.noteRead_matchCnt (b : BankNo) (m : BitVec 16) : (s.noteRead b m).matchCnt = s.matchCnt := rfl
@[simp] theorem State.noteRead_trialCnt (b : BankNo) (m : BitVec 16) : (s.noteRead b m).trialCnt = s.trialCnt := rfl
@[simp] theorem State.noteRead_cmpr (b : BankNo) (m : BitVec 16) : (s.noteRead b m).cmpr = s.cmpr := rfl
@[simp] theorem State.noteRead_inFlight (b : BankNo) (m : BitVec 16) : (s.noteRead b m).inFlight = s.inFlight := rfl
@[simp] theorem State.noteRead_inReset (b : BankNo) (m : BitVec 16) : (s.noteRead b m).inReset = s.inReset := rfl
@[simp] theorem State.noteRead_schedule (b : BankNo) (m : BitVec 16) : (s.noteRead b m).schedule = s.schedule := rfl
@[simp] theorem State.noteRead_response (b : BankNo) (m : BitVec 16) : (s.noteRead b m).response = s.response := rfl
@[simp] theorem State.noteRead_draws (b : BankNo) (m : BitVec 16) : (s.noteRead b m).draws = s.draws := rfl
@[simp] theorem State.noteRead_busy (b : BankNo) (m : BitVec 16) : (s.noteRead b m).busy = s.busy := rfl
@[simp] theorem State.noteRead_bank (b : BankNo) (m : BitVec 16) (k : BankNo) : (s.noteRead b m).bank k = s.bank k := rfl
@[simp] theorem State.noteRead_bankWord (b : BankNo) (m : BitVec 16) (k : BankNo) (u : WordNo) : (s.noteRead b m).bankWord k u = s.bankWord k u := rfl
@[simp] theorem State.noteRead_writtenMask (b : BankNo) (m : BitVec 16) (k : BankNo) : (s.noteRead b m).writtenMask k = s.writtenMask k := rfl
@[simp] theorem State.noteRead_counterFull (b : BankNo) (m : BitVec 16) : (s.noteRead b m).counterFull = s.counterFull := rfl

@[simp] theorem State.recordError_banks (c : ErrCode) : (s.recordError c).banks = s.banks := rfl
@[simp] theorem State.recordError_written (c : ErrCode) : (s.recordError c).written = s.written := rfl
@[simp] theorem State.recordError_err (c : ErrCode) : (s.recordError c).err = true := rfl
@[simp] theorem State.recordError_errCode (c : ErrCode) : (s.recordError c).errCode = if s.err then s.errCode else errCodeBits c := rfl
@[simp] theorem State.recordError_matchCnt (c : ErrCode) : (s.recordError c).matchCnt = s.matchCnt := rfl
@[simp] theorem State.recordError_trialCnt (c : ErrCode) : (s.recordError c).trialCnt = s.trialCnt := rfl
@[simp] theorem State.recordError_cmpr (c : ErrCode) : (s.recordError c).cmpr = s.cmpr := rfl
@[simp] theorem State.recordError_inFlight (c : ErrCode) : (s.recordError c).inFlight = s.inFlight := rfl
@[simp] theorem State.recordError_inReset (c : ErrCode) : (s.recordError c).inReset = s.inReset := rfl
@[simp] theorem State.recordError_schedule (c : ErrCode) : (s.recordError c).schedule = s.schedule := rfl
@[simp] theorem State.recordError_response (c : ErrCode) : (s.recordError c).response = s.response := rfl
@[simp] theorem State.recordError_draws (c : ErrCode) : (s.recordError c).draws = s.draws := rfl
@[simp] theorem State.recordError_readUnwritten (c : ErrCode) : (s.recordError c).readUnwritten = s.readUnwritten := rfl
@[simp] theorem State.recordError_busy (c : ErrCode) : (s.recordError c).busy = s.busy := rfl
@[simp] theorem State.recordError_bank (c : ErrCode) (k : BankNo) : (s.recordError c).bank k = s.bank k := rfl
@[simp] theorem State.recordError_bankWord (c : ErrCode) (k : BankNo) (u : WordNo) : (s.recordError c).bankWord k u = s.bankWord k u := rfl
@[simp] theorem State.recordError_writtenMask (c : ErrCode) (k : BankNo) : (s.recordError c).writtenMask k = s.writtenMask k := rfl
@[simp] theorem State.recordError_counterFull (c : ErrCode) : (s.recordError c).counterFull = s.counterFull := rfl

@[simp] theorem State.clearError_banks : (s.clearError).banks = s.banks := rfl
@[simp] theorem State.clearError_written : (s.clearError).written = s.written := rfl
@[simp] theorem State.clearError_err : (s.clearError).err = false := rfl
@[simp] theorem State.clearError_errCode : (s.clearError).errCode = 0#4 := rfl
@[simp] theorem State.clearError_matchCnt : (s.clearError).matchCnt = s.matchCnt := rfl
@[simp] theorem State.clearError_trialCnt : (s.clearError).trialCnt = s.trialCnt := rfl
@[simp] theorem State.clearError_cmpr : (s.clearError).cmpr = s.cmpr := rfl
@[simp] theorem State.clearError_inFlight : (s.clearError).inFlight = s.inFlight := rfl
@[simp] theorem State.clearError_inReset : (s.clearError).inReset = s.inReset := rfl
@[simp] theorem State.clearError_schedule : (s.clearError).schedule = s.schedule := rfl
@[simp] theorem State.clearError_response : (s.clearError).response = s.response := rfl
@[simp] theorem State.clearError_draws : (s.clearError).draws = s.draws := rfl
@[simp] theorem State.clearError_readUnwritten : (s.clearError).readUnwritten = s.readUnwritten := rfl
@[simp] theorem State.clearError_busy : (s.clearError).busy = s.busy := rfl
@[simp] theorem State.clearError_bank (k : BankNo) : (s.clearError).bank k = s.bank k := rfl
@[simp] theorem State.clearError_bankWord (k : BankNo) (u : WordNo) : (s.clearError).bankWord k u = s.bankWord k u := rfl
@[simp] theorem State.clearError_writtenMask (k : BankNo) : (s.clearError).writtenMask k = s.writtenMask k := rfl
@[simp] theorem State.clearError_counterFull : (s.clearError).counterFull = s.counterFull := rfl

@[simp] theorem State.setMatchCnt_banks (v : Word) : (s.setMatchCnt v).banks = s.banks := rfl
@[simp] theorem State.setMatchCnt_written (v : Word) : (s.setMatchCnt v).written = s.written := rfl
@[simp] theorem State.setMatchCnt_err (v : Word) : (s.setMatchCnt v).err = s.err := rfl
@[simp] theorem State.setMatchCnt_errCode (v : Word) : (s.setMatchCnt v).errCode = s.errCode := rfl
@[simp] theorem State.setMatchCnt_matchCnt (v : Word) : (s.setMatchCnt v).matchCnt = v := rfl
@[simp] theorem State.setMatchCnt_trialCnt (v : Word) : (s.setMatchCnt v).trialCnt = s.trialCnt := rfl
@[simp] theorem State.setMatchCnt_cmpr (v : Word) : (s.setMatchCnt v).cmpr = s.cmpr := rfl
@[simp] theorem State.setMatchCnt_inFlight (v : Word) : (s.setMatchCnt v).inFlight = s.inFlight := rfl
@[simp] theorem State.setMatchCnt_inReset (v : Word) : (s.setMatchCnt v).inReset = s.inReset := rfl
@[simp] theorem State.setMatchCnt_schedule (v : Word) : (s.setMatchCnt v).schedule = s.schedule := rfl
@[simp] theorem State.setMatchCnt_response (v : Word) : (s.setMatchCnt v).response = s.response := rfl
@[simp] theorem State.setMatchCnt_draws (v : Word) : (s.setMatchCnt v).draws = s.draws := rfl
@[simp] theorem State.setMatchCnt_readUnwritten (v : Word) : (s.setMatchCnt v).readUnwritten = s.readUnwritten := rfl
@[simp] theorem State.setMatchCnt_busy (v : Word) : (s.setMatchCnt v).busy = s.busy := rfl
@[simp] theorem State.setMatchCnt_bank (v : Word) (k : BankNo) : (s.setMatchCnt v).bank k = s.bank k := rfl
@[simp] theorem State.setMatchCnt_bankWord (v : Word) (k : BankNo) (u : WordNo) : (s.setMatchCnt v).bankWord k u = s.bankWord k u := rfl
@[simp] theorem State.setMatchCnt_writtenMask (v : Word) (k : BankNo) : (s.setMatchCnt v).writtenMask k = s.writtenMask k := rfl

@[simp] theorem State.setTrialCnt_banks (v : Word) : (s.setTrialCnt v).banks = s.banks := rfl
@[simp] theorem State.setTrialCnt_written (v : Word) : (s.setTrialCnt v).written = s.written := rfl
@[simp] theorem State.setTrialCnt_err (v : Word) : (s.setTrialCnt v).err = s.err := rfl
@[simp] theorem State.setTrialCnt_errCode (v : Word) : (s.setTrialCnt v).errCode = s.errCode := rfl
@[simp] theorem State.setTrialCnt_matchCnt (v : Word) : (s.setTrialCnt v).matchCnt = s.matchCnt := rfl
@[simp] theorem State.setTrialCnt_trialCnt (v : Word) : (s.setTrialCnt v).trialCnt = v := rfl
@[simp] theorem State.setTrialCnt_cmpr (v : Word) : (s.setTrialCnt v).cmpr = s.cmpr := rfl
@[simp] theorem State.setTrialCnt_inFlight (v : Word) : (s.setTrialCnt v).inFlight = s.inFlight := rfl
@[simp] theorem State.setTrialCnt_inReset (v : Word) : (s.setTrialCnt v).inReset = s.inReset := rfl
@[simp] theorem State.setTrialCnt_schedule (v : Word) : (s.setTrialCnt v).schedule = s.schedule := rfl
@[simp] theorem State.setTrialCnt_response (v : Word) : (s.setTrialCnt v).response = s.response := rfl
@[simp] theorem State.setTrialCnt_draws (v : Word) : (s.setTrialCnt v).draws = s.draws := rfl
@[simp] theorem State.setTrialCnt_readUnwritten (v : Word) : (s.setTrialCnt v).readUnwritten = s.readUnwritten := rfl
@[simp] theorem State.setTrialCnt_busy (v : Word) : (s.setTrialCnt v).busy = s.busy := rfl
@[simp] theorem State.setTrialCnt_bank (v : Word) (k : BankNo) : (s.setTrialCnt v).bank k = s.bank k := rfl
@[simp] theorem State.setTrialCnt_bankWord (v : Word) (k : BankNo) (u : WordNo) : (s.setTrialCnt v).bankWord k u = s.bankWord k u := rfl
@[simp] theorem State.setTrialCnt_writtenMask (v : Word) (k : BankNo) : (s.setTrialCnt v).writtenMask k = s.writtenMask k := rfl

@[simp] theorem State.setCmpr_banks (v : Word) : (s.setCmpr v).banks = s.banks := rfl
@[simp] theorem State.setCmpr_written (v : Word) : (s.setCmpr v).written = s.written := rfl
@[simp] theorem State.setCmpr_err (v : Word) : (s.setCmpr v).err = s.err := rfl
@[simp] theorem State.setCmpr_errCode (v : Word) : (s.setCmpr v).errCode = s.errCode := rfl
@[simp] theorem State.setCmpr_matchCnt (v : Word) : (s.setCmpr v).matchCnt = s.matchCnt := rfl
@[simp] theorem State.setCmpr_trialCnt (v : Word) : (s.setCmpr v).trialCnt = s.trialCnt := rfl
@[simp] theorem State.setCmpr_cmpr (v : Word) : (s.setCmpr v).cmpr = v := rfl
@[simp] theorem State.setCmpr_inFlight (v : Word) : (s.setCmpr v).inFlight = s.inFlight := rfl
@[simp] theorem State.setCmpr_inReset (v : Word) : (s.setCmpr v).inReset = s.inReset := rfl
@[simp] theorem State.setCmpr_schedule (v : Word) : (s.setCmpr v).schedule = s.schedule := rfl
@[simp] theorem State.setCmpr_response (v : Word) : (s.setCmpr v).response = s.response := rfl
@[simp] theorem State.setCmpr_draws (v : Word) : (s.setCmpr v).draws = s.draws := rfl
@[simp] theorem State.setCmpr_readUnwritten (v : Word) : (s.setCmpr v).readUnwritten = s.readUnwritten := rfl
@[simp] theorem State.setCmpr_busy (v : Word) : (s.setCmpr v).busy = s.busy := rfl
@[simp] theorem State.setCmpr_bank (v : Word) (k : BankNo) : (s.setCmpr v).bank k = s.bank k := rfl
@[simp] theorem State.setCmpr_bankWord (v : Word) (k : BankNo) (u : WordNo) : (s.setCmpr v).bankWord k u = s.bankWord k u := rfl
@[simp] theorem State.setCmpr_writtenMask (v : Word) (k : BankNo) : (s.setCmpr v).writtenMask k = s.writtenMask k := rfl
@[simp] theorem State.setCmpr_counterFull (v : Word) : (s.setCmpr v).counterFull = s.counterFull := rfl

@[simp] theorem State.setInFlight_banks (f : Option InFlight) : (s.setInFlight f).banks = s.banks := rfl
@[simp] theorem State.setInFlight_written (f : Option InFlight) : (s.setInFlight f).written = s.written := rfl
@[simp] theorem State.setInFlight_err (f : Option InFlight) : (s.setInFlight f).err = s.err := rfl
@[simp] theorem State.setInFlight_errCode (f : Option InFlight) : (s.setInFlight f).errCode = s.errCode := rfl
@[simp] theorem State.setInFlight_matchCnt (f : Option InFlight) : (s.setInFlight f).matchCnt = s.matchCnt := rfl
@[simp] theorem State.setInFlight_trialCnt (f : Option InFlight) : (s.setInFlight f).trialCnt = s.trialCnt := rfl
@[simp] theorem State.setInFlight_cmpr (f : Option InFlight) : (s.setInFlight f).cmpr = s.cmpr := rfl
@[simp] theorem State.setInFlight_inFlight (f : Option InFlight) : (s.setInFlight f).inFlight = f := rfl
@[simp] theorem State.setInFlight_inReset (f : Option InFlight) : (s.setInFlight f).inReset = s.inReset := rfl
@[simp] theorem State.setInFlight_schedule (f : Option InFlight) : (s.setInFlight f).schedule = s.schedule := rfl
@[simp] theorem State.setInFlight_response (f : Option InFlight) : (s.setInFlight f).response = s.response := rfl
@[simp] theorem State.setInFlight_draws (f : Option InFlight) : (s.setInFlight f).draws = s.draws := rfl
@[simp] theorem State.setInFlight_readUnwritten (f : Option InFlight) : (s.setInFlight f).readUnwritten = s.readUnwritten := rfl
@[simp] theorem State.setInFlight_bank (f : Option InFlight) (k : BankNo) : (s.setInFlight f).bank k = s.bank k := rfl
@[simp] theorem State.setInFlight_bankWord (f : Option InFlight) (k : BankNo) (u : WordNo) : (s.setInFlight f).bankWord k u = s.bankWord k u := rfl
@[simp] theorem State.setInFlight_writtenMask (f : Option InFlight) (k : BankNo) : (s.setInFlight f).writtenMask k = s.writtenMask k := rfl
@[simp] theorem State.setInFlight_counterFull (f : Option InFlight) : (s.setInFlight f).counterFull = s.counterFull := rfl

@[simp] theorem State.accept_banks (f : InFlight) : (s.accept f).banks = s.banks := rfl
@[simp] theorem State.accept_written (f : InFlight) : (s.accept f).written = s.written := rfl
@[simp] theorem State.accept_err (f : InFlight) : (s.accept f).err = s.err := rfl
@[simp] theorem State.accept_errCode (f : InFlight) : (s.accept f).errCode = s.errCode := rfl
@[simp] theorem State.accept_matchCnt (f : InFlight) : (s.accept f).matchCnt = s.matchCnt := rfl
@[simp] theorem State.accept_trialCnt (f : InFlight) : (s.accept f).trialCnt = s.trialCnt := rfl
@[simp] theorem State.accept_cmpr (f : InFlight) : (s.accept f).cmpr = s.cmpr := rfl
@[simp] theorem State.accept_inFlight (f : InFlight) : (s.accept f).inFlight = some f := rfl
@[simp] theorem State.accept_inReset (f : InFlight) : (s.accept f).inReset = s.inReset := rfl
@[simp] theorem State.accept_schedule (f : InFlight) : (s.accept f).schedule = s.schedule := rfl
@[simp] theorem State.accept_response (f : InFlight) : (s.accept f).response = s.response := rfl
@[simp] theorem State.accept_draws (f : InFlight) : (s.accept f).draws = s.draws := rfl
@[simp] theorem State.accept_readUnwritten (f : InFlight) : (s.accept f).readUnwritten = s.readUnwritten := rfl
@[simp] theorem State.accept_bank (f : InFlight) (k : BankNo) : (s.accept f).bank k = s.bank k := rfl
@[simp] theorem State.accept_bankWord (f : InFlight) (k : BankNo) (u : WordNo) : (s.accept f).bankWord k u = s.bankWord k u := rfl
@[simp] theorem State.accept_writtenMask (f : InFlight) (k : BankNo) : (s.accept f).writtenMask k = s.writtenMask k := rfl
@[simp] theorem State.accept_counterFull (f : InFlight) : (s.accept f).counterFull = s.counterFull := rfl

@[simp] theorem State.release_banks : (s.release).banks = s.banks := rfl
@[simp] theorem State.release_written : (s.release).written = s.written := rfl
@[simp] theorem State.release_err : (s.release).err = s.err := rfl
@[simp] theorem State.release_errCode : (s.release).errCode = s.errCode := rfl
@[simp] theorem State.release_matchCnt : (s.release).matchCnt = s.matchCnt := rfl
@[simp] theorem State.release_trialCnt : (s.release).trialCnt = s.trialCnt := rfl
@[simp] theorem State.release_cmpr : (s.release).cmpr = s.cmpr := rfl
@[simp] theorem State.release_inFlight : (s.release).inFlight = none := rfl
@[simp] theorem State.release_inReset : (s.release).inReset = s.inReset := rfl
@[simp] theorem State.release_schedule : (s.release).schedule = s.schedule := rfl
@[simp] theorem State.release_response : (s.release).response = s.response := rfl
@[simp] theorem State.release_draws : (s.release).draws = s.draws := rfl
@[simp] theorem State.release_readUnwritten : (s.release).readUnwritten = s.readUnwritten := rfl
@[simp] theorem State.release_bank (k : BankNo) : (s.release).bank k = s.bank k := rfl
@[simp] theorem State.release_bankWord (k : BankNo) (u : WordNo) : (s.release).bankWord k u = s.bankWord k u := rfl
@[simp] theorem State.release_writtenMask (k : BankNo) : (s.release).writtenMask k = s.writtenMask k := rfl
@[simp] theorem State.release_counterFull : (s.release).counterFull = s.counterFull := rfl

@[simp] theorem State.respond_banks (r : Response) : (s.respond r).banks = s.banks := rfl
@[simp] theorem State.respond_written (r : Response) : (s.respond r).written = s.written := rfl
@[simp] theorem State.respond_err (r : Response) : (s.respond r).err = s.err := rfl
@[simp] theorem State.respond_errCode (r : Response) : (s.respond r).errCode = s.errCode := rfl
@[simp] theorem State.respond_matchCnt (r : Response) : (s.respond r).matchCnt = s.matchCnt := rfl
@[simp] theorem State.respond_trialCnt (r : Response) : (s.respond r).trialCnt = s.trialCnt := rfl
@[simp] theorem State.respond_cmpr (r : Response) : (s.respond r).cmpr = s.cmpr := rfl
@[simp] theorem State.respond_inFlight (r : Response) : (s.respond r).inFlight = s.inFlight := rfl
@[simp] theorem State.respond_inReset (r : Response) : (s.respond r).inReset = s.inReset := rfl
@[simp] theorem State.respond_schedule (r : Response) : (s.respond r).schedule = s.schedule := rfl
@[simp] theorem State.respond_response (r : Response) : (s.respond r).response = r := rfl
@[simp] theorem State.respond_draws (r : Response) : (s.respond r).draws = s.draws := rfl
@[simp] theorem State.respond_readUnwritten (r : Response) : (s.respond r).readUnwritten = s.readUnwritten := rfl
@[simp] theorem State.respond_busy (r : Response) : (s.respond r).busy = s.busy := rfl
@[simp] theorem State.respond_bank (r : Response) (k : BankNo) : (s.respond r).bank k = s.bank k := rfl
@[simp] theorem State.respond_bankWord (r : Response) (k : BankNo) (u : WordNo) : (s.respond r).bankWord k u = s.bankWord k u := rfl
@[simp] theorem State.respond_writtenMask (r : Response) (k : BankNo) : (s.respond r).writtenMask k = s.writtenMask k := rfl
@[simp] theorem State.respond_counterFull (r : Response) : (s.respond r).counterFull = s.counterFull := rfl

@[simp] theorem State.answer_banks (v : Word) : (s.answer v).banks = s.banks := rfl
@[simp] theorem State.answer_written (v : Word) : (s.answer v).written = s.written := rfl
@[simp] theorem State.answer_err (v : Word) : (s.answer v).err = s.err := rfl
@[simp] theorem State.answer_errCode (v : Word) : (s.answer v).errCode = s.errCode := rfl
@[simp] theorem State.answer_matchCnt (v : Word) : (s.answer v).matchCnt = s.matchCnt := rfl
@[simp] theorem State.answer_trialCnt (v : Word) : (s.answer v).trialCnt = s.trialCnt := rfl
@[simp] theorem State.answer_cmpr (v : Word) : (s.answer v).cmpr = s.cmpr := rfl
@[simp] theorem State.answer_inFlight (v : Word) : (s.answer v).inFlight = s.inFlight := rfl
@[simp] theorem State.answer_inReset (v : Word) : (s.answer v).inReset = s.inReset := rfl
@[simp] theorem State.answer_schedule (v : Word) : (s.answer v).schedule = s.schedule := rfl
@[simp] theorem State.answer_response (v : Word) : (s.answer v).response = .data v := rfl
@[simp] theorem State.answer_draws (v : Word) : (s.answer v).draws = s.draws := rfl
@[simp] theorem State.answer_readUnwritten (v : Word) : (s.answer v).readUnwritten = s.readUnwritten := rfl
@[simp] theorem State.answer_busy (v : Word) : (s.answer v).busy = s.busy := rfl
@[simp] theorem State.answer_bank (v : Word) (k : BankNo) : (s.answer v).bank k = s.bank k := rfl
@[simp] theorem State.answer_bankWord (v : Word) (k : BankNo) (u : WordNo) : (s.answer v).bankWord k u = s.bankWord k u := rfl
@[simp] theorem State.answer_writtenMask (v : Word) (k : BankNo) : (s.answer v).writtenMask k = s.writtenMask k := rfl
@[simp] theorem State.answer_counterFull (v : Word) : (s.answer v).counterFull = s.counterFull := rfl

@[simp] theorem State.setSchedule_banks (l : List Turn) : (s.setSchedule l).banks = s.banks := rfl
@[simp] theorem State.setSchedule_written (l : List Turn) : (s.setSchedule l).written = s.written := rfl
@[simp] theorem State.setSchedule_err (l : List Turn) : (s.setSchedule l).err = s.err := rfl
@[simp] theorem State.setSchedule_errCode (l : List Turn) : (s.setSchedule l).errCode = s.errCode := rfl
@[simp] theorem State.setSchedule_matchCnt (l : List Turn) : (s.setSchedule l).matchCnt = s.matchCnt := rfl
@[simp] theorem State.setSchedule_trialCnt (l : List Turn) : (s.setSchedule l).trialCnt = s.trialCnt := rfl
@[simp] theorem State.setSchedule_cmpr (l : List Turn) : (s.setSchedule l).cmpr = s.cmpr := rfl
@[simp] theorem State.setSchedule_inFlight (l : List Turn) : (s.setSchedule l).inFlight = s.inFlight := rfl
@[simp] theorem State.setSchedule_inReset (l : List Turn) : (s.setSchedule l).inReset = s.inReset := rfl
@[simp] theorem State.setSchedule_schedule (l : List Turn) : (s.setSchedule l).schedule = l := rfl
@[simp] theorem State.setSchedule_response (l : List Turn) : (s.setSchedule l).response = s.response := rfl
@[simp] theorem State.setSchedule_draws (l : List Turn) : (s.setSchedule l).draws = s.draws := rfl
@[simp] theorem State.setSchedule_readUnwritten (l : List Turn) : (s.setSchedule l).readUnwritten = s.readUnwritten := rfl
@[simp] theorem State.setSchedule_busy (l : List Turn) : (s.setSchedule l).busy = s.busy := rfl
@[simp] theorem State.setSchedule_bank (l : List Turn) (k : BankNo) : (s.setSchedule l).bank k = s.bank k := rfl
@[simp] theorem State.setSchedule_bankWord (l : List Turn) (k : BankNo) (u : WordNo) : (s.setSchedule l).bankWord k u = s.bankWord k u := rfl
@[simp] theorem State.setSchedule_writtenMask (l : List Turn) (k : BankNo) : (s.setSchedule l).writtenMask k = s.writtenMask k := rfl
@[simp] theorem State.setSchedule_counterFull (l : List Turn) : (s.setSchedule l).counterFull = s.counterFull := rfl

@[simp] theorem State.draw_banks : (s.draw).banks = s.banks := rfl
@[simp] theorem State.draw_written : (s.draw).written = s.written := rfl
@[simp] theorem State.draw_err : (s.draw).err = s.err := rfl
@[simp] theorem State.draw_errCode : (s.draw).errCode = s.errCode := rfl
@[simp] theorem State.draw_matchCnt : (s.draw).matchCnt = s.matchCnt := rfl
@[simp] theorem State.draw_trialCnt : (s.draw).trialCnt = s.trialCnt := rfl
@[simp] theorem State.draw_cmpr : (s.draw).cmpr = s.cmpr := rfl
@[simp] theorem State.draw_inFlight : (s.draw).inFlight = s.inFlight := rfl
@[simp] theorem State.draw_inReset : (s.draw).inReset = s.inReset := rfl
@[simp] theorem State.draw_schedule : (s.draw).schedule = s.schedule := rfl
@[simp] theorem State.draw_response : (s.draw).response = s.response := rfl
@[simp] theorem State.draw_draws : (s.draw).draws = s.draws + 1 := rfl
@[simp] theorem State.draw_readUnwritten : (s.draw).readUnwritten = s.readUnwritten := rfl
@[simp] theorem State.draw_busy : (s.draw).busy = s.busy := rfl
@[simp] theorem State.draw_bank (k : BankNo) : (s.draw).bank k = s.bank k := rfl
@[simp] theorem State.draw_bankWord (k : BankNo) (u : WordNo) : (s.draw).bankWord k u = s.bankWord k u := rfl
@[simp] theorem State.draw_writtenMask (k : BankNo) : (s.draw).writtenMask k = s.writtenMask k := rfl
@[simp] theorem State.draw_counterFull : (s.draw).counterFull = s.counterFull := rfl

@[simp] theorem State.applyReset_banks : (s.applyReset).banks = banksAfterReset s.draws := rfl
@[simp] theorem State.applyReset_written : (s.applyReset).written = Vector.replicate 8 0#16 := rfl
@[simp] theorem State.applyReset_err : (s.applyReset).err = false := rfl
@[simp] theorem State.applyReset_errCode : (s.applyReset).errCode = 0#4 := rfl
@[simp] theorem State.applyReset_matchCnt : (s.applyReset).matchCnt = 0#32 := rfl
@[simp] theorem State.applyReset_trialCnt : (s.applyReset).trialCnt = 0#32 := rfl
@[simp] theorem State.applyReset_cmpr : (s.applyReset).cmpr = 0#32 := rfl
@[simp] theorem State.applyReset_inFlight : (s.applyReset).inFlight = none := rfl
@[simp] theorem State.applyReset_inReset : (s.applyReset).inReset = s.inReset := rfl
@[simp] theorem State.applyReset_schedule : (s.applyReset).schedule = s.schedule := rfl
@[simp] theorem State.applyReset_response : (s.applyReset).response = s.response := rfl
@[simp] theorem State.applyReset_draws : (s.applyReset).draws = s.draws + 1 := rfl
@[simp] theorem State.applyReset_readUnwritten : (s.applyReset).readUnwritten = s.readUnwritten := rfl

@[simp] theorem State.countCompare_banks (m a b c d : Bool) : (s.countCompare m a b c d).banks = s.banks := rfl
@[simp] theorem State.countCompare_written (m a b c d : Bool) : (s.countCompare m a b c d).written = s.written := rfl
@[simp] theorem State.countCompare_err (m a b c d : Bool) : (s.countCompare m a b c d).err = s.err := rfl
@[simp] theorem State.countCompare_errCode (m a b c d : Bool) : (s.countCompare m a b c d).errCode = s.errCode := rfl
@[simp] theorem State.countCompare_matchCnt (m a b c d : Bool) : (s.countCompare m a b c d).matchCnt = s.matchCnt + countOf m := rfl
@[simp] theorem State.countCompare_trialCnt (m a b c d : Bool) : (s.countCompare m a b c d).trialCnt = s.trialCnt + 1#32 := rfl
@[simp] theorem State.countCompare_cmpr (m a b c d : Bool) : (s.countCompare m a b c d).cmpr = cmprWord m a b c d := rfl
@[simp] theorem State.countCompare_inFlight (m a b c d : Bool) : (s.countCompare m a b c d).inFlight = s.inFlight := rfl
@[simp] theorem State.countCompare_inReset (m a b c d : Bool) : (s.countCompare m a b c d).inReset = s.inReset := rfl
@[simp] theorem State.countCompare_schedule (m a b c d : Bool) : (s.countCompare m a b c d).schedule = s.schedule := rfl
@[simp] theorem State.countCompare_response (m a b c d : Bool) : (s.countCompare m a b c d).response = s.response := rfl
@[simp] theorem State.countCompare_draws (m a b c d : Bool) : (s.countCompare m a b c d).draws = s.draws := rfl
@[simp] theorem State.countCompare_readUnwritten (m a b c d : Bool) : (s.countCompare m a b c d).readUnwritten = s.readUnwritten := rfl
@[simp] theorem State.countCompare_busy (m a b c d : Bool) : (s.countCompare m a b c d).busy = s.busy := rfl
@[simp] theorem State.countCompare_bank (m a b c d : Bool) (k : BankNo) : (s.countCompare m a b c d).bank k = s.bank k := rfl
@[simp] theorem State.countCompare_bankWord (m a b c d : Bool) (k : BankNo) (u : WordNo) : (s.countCompare m a b c d).bankWord k u = s.bankWord k u := rfl
@[simp] theorem State.countCompare_writtenMask (m a b c d : Bool) (k : BankNo) : (s.countCompare m a b c d).writtenMask k = s.writtenMask k := rfl

@[simp] theorem State.accept_busy (f : InFlight) : (s.accept f).busy = true := rfl
@[simp] theorem State.release_busy : s.release.busy = false := rfl
@[simp] theorem State.applyReset_busy : s.applyReset.busy = false := rfl
@[simp] theorem State.setInFlight_busy (f : Option InFlight) : (s.setInFlight f).busy = f.isSome := rfl

/-- The record of unwritten words after words of bank `b` have been read (R17). -/
@[simp] theorem State.noteRead_readUnwritten (b : BankNo) (m : BitVec 16) :
    (s.noteRead b m).readUnwritten = (s.readUnwritten || !(m &&& ~~~(s.writtenMask b) == 0#16)) := rfl

/-- A state that holds no command is not changed by releasing it. -/
theorem State.release_of_idle (h : s.inFlight = none) : s.release = s := by
  cases s; simp_all [State.release, State.setInFlight]

/-- BUSY = 0 means that no command is in flight. -/
theorem State.busy_eq_false_iff : s.busy = false ↔ s.inFlight = none := by
  simp [State.busy]

/-- BUSY = 1 means that some command is in flight. -/
theorem State.busy_eq_true_iff : s.busy = true ↔ ∃ f, s.inFlight = some f := by
  simp [State.busy, Option.isSome_iff_exists]

end Sys2Proof.Machine
end

