-- ==== Sys2Proof/Laws/Bank.lean ====
section
/-! SUPPORT. The laws of 16-word vectors and of the bank register file: a read after a write to the same place gives what was
written, and a write leaves every other place alone. -/

namespace Sys2Proof.Machine

/-- `getWord` is the vector's own lookup at the word's number. -/
theorem getWord_eq (v : Block) (w : WordNo) : getWord v w = v[w.toNat]'(by have := w.isLt; omega) := rfl

@[simp] theorem getWord_putWord_same (v : Block) (w : WordNo) (x : Word) : getWord (putWord v w x) w = x := by
  simp [getWord, putWord]

theorem getWord_putWord_of_ne (v : Block) {w u : WordNo} (x : Word) (h : u ≠ w) :
    getWord (putWord v w x) u = getWord v u := by
  have : w.toNat ≠ u.toNat := fun e => h (BitVec.eq_of_toNat_eq e.symm)
  simp [getWord, putWord, Vector.getElem_set_ne, this]

theorem getWord_putWord (v : Block) (w u : WordNo) (x : Word) :
    getWord (putWord v w x) u = if u = w then x else getWord v u := by
  by_cases h : u = w
  · simp [h]
  · simp [h, getWord_putWord_of_ne v x h]

/-- Two blocks with the same 16 words are equal. -/
theorem Block_ext {v u : Block} (h : ∀ w : Fin 16, v[w] = u[w]) : v = u := by
  apply Vector.ext
  intro i hi
  exact h ⟨i, hi⟩

@[simp] theorem getElem_lanes (f : Fin 16 → Word) (i : Nat) (h : i < 16) : (lanes f)[i] = f ⟨i, h⟩ := by
  simp [lanes]

@[simp] theorem getElem_addBlocks (x y : Block) (i : Nat) (h : i < 16) : (addBlocks x y)[i] = x[i] + y[i] := by
  simp [addBlocks]

@[simp] theorem getElem_subBlocks (x y : Block) (i : Nat) (h : i < 16) : (subBlocks x y)[i] = x[i] - y[i] := by
  simp [subBlocks]

variable (s : State)

/-- Reading a bank after a bank has been written. -/
theorem State.bank_writeBank (d b : BankNo) (v : Block) : (s.writeBank d v).bank b = if b = d then v else s.bank b := by
  by_cases h : b = d
  · simp [State.bank, State.writeBank, h]
  · have : d.toNat ≠ b.toNat := fun e => h (BitVec.eq_of_toNat_eq e.symm)
    simp [State.bank, State.writeBank, h, Vector.getElem_set_ne, this]

@[simp] theorem State.bank_writeBank_same (d : BankNo) (v : Block) : (s.writeBank d v).bank d = v := by
  simp [State.bank_writeBank]

@[simp] theorem State.bankWord_writeBank_same (d : BankNo) (v : Block) (w : WordNo) :
    (s.writeBank d v).bankWord d w = getWord v w := by
  simp [State.bankWord]

/-- Which words are written after a bank has been written. -/
theorem State.writtenMask_writeBank (d b : BankNo) (v : Block) :
    (s.writeBank d v).writtenMask b = if b = d then allWords else s.writtenMask b := by
  by_cases h : b = d
  · simp [State.writtenMask, State.writeBank, h, allWords]
  · have : d.toNat ≠ b.toNat := fun e => h (BitVec.eq_of_toNat_eq e.symm)
    simp [State.writtenMask, State.writeBank, h, Vector.getElem_set_ne, this]

/-- Reading a bank after one word has been written. -/
theorem State.bank_writeWord (d b : BankNo) (w : WordNo) (x : Word) :
    (s.writeWord d w x).bank b = if b = d then putWord (s.bank d) w x else s.bank b := by
  by_cases h : b = d
  · simp [State.bank, State.writeWord, h]
  · have : d.toNat ≠ b.toNat := fun e => h (BitVec.eq_of_toNat_eq e.symm)
    simp [State.bank, State.writeWord, h, Vector.getElem_set_ne, this]

/-- Which words are written after one word has been written. -/
theorem State.writtenMask_writeWord (d b : BankNo) (w : WordNo) (x : Word) :
    (s.writeWord d w x).writtenMask b = if b = d then s.writtenMask d ||| wordMask w else s.writtenMask b := by
  by_cases h : b = d
  · simp [State.writtenMask, State.writeWord, h]
  · have : d.toNat ≠ b.toNat := fun e => h (BitVec.eq_of_toNat_eq e.symm)
    simp [State.writtenMask, State.writeWord, h, Vector.getElem_set_ne, this]

/-- Two states with the same sixteen words in every bank have the same bank register file. -/
theorem State.banks_eq_of_bank {s t : State} (h : ∀ b, t.bank b = s.bank b) : t.banks = s.banks := by
  apply Vector.ext
  intro i hi
  have := h (BitVec.ofNat 3 i)
  simpa [State.bank, Nat.mod_eq_of_lt hi] using this

/-- After reset every bank word is unwritten. -/
@[simp] theorem State.writtenMask_applyReset (b : BankNo) : s.applyReset.writtenMask b = 0#16 := by
  simp [State.writtenMask]

end Sys2Proof.Machine
end

