-- ==== Sys2Proof/Laws/Exec.lean ====
section
/-! SUPPORT. What each shared operation of the machine can do, said once: reading a source, the rounds of the command in
flight, its commit, a bus access, a move of the sequencer, and a step. -/

namespace Sys2Proof.Machine

open Sys2Proof.Safety

/-! Reading a source. -/

theorem State.noteRead_readUnwritten_iff (s : State) (b : BankNo) (m : BitVec 16) :
    (s.noteRead b m).readUnwritten = true ↔ s.readUnwritten = true ∨ m &&& ~~~(s.writtenMask b) ≠ 0#16 := by
  simp [State.noteRead_readUnwritten]

/-! Rounds. -/

theorem forwardN_succ (v : Block) (lo n : Nat) : forwardN v lo (n + 1) = fwdRound (forwardN v lo n) (lo + n) := by
  induction n generalizing v lo with
  | zero => rfl
  | succ n ih => rw [forwardN, ih, forwardN, show lo + 1 + n = lo + (n + 1) by omega]

theorem forwardN_add (v : Block) (lo n m : Nat) :
    forwardN v lo (n + m) = forwardN (forwardN v lo n) (lo + n) m := by
  induction n generalizing v lo with
  | zero => simp [forwardN]
  | succ n ih => rw [show n + 1 + m = (n + m) + 1 by omega, forwardN, ih, forwardN, show lo + 1 + n = lo + (n + 1) by omega]

theorem inverseN_succ (v : Block) (lo n : Nat) : inverseN v lo (n + 1) = invRound (inverseN v (lo + 1) n) lo := by
  induction n generalizing v lo with
  | zero => rfl
  | succ n ih => rw [inverseN, ih, inverseN, show lo + 1 + n = lo + (n + 1) by omega]

theorem roundSteps_succ (n : Nat) (f : InFlight) : roundSteps (n + 1) f = roundStep (roundSteps n f) := by
  induction n generalizing f with
  | zero => rfl
  | succ n ih => rw [roundSteps, ih]; rfl

@[simp] theorem roundStep_cmd (f : InFlight) : (roundStep f).cmd = f.cmd := by
  unfold roundStep
  split <;> rfl

@[simp] theorem roundSteps_cmd (n : Nat) (f : InFlight) : (roundSteps n f).cmd = f.cmd := by
  induction n with
  | zero => rfl
  | succ n ih => rw [roundSteps_succ, roundStep_cmd, ih]

/-- A round that was left is done. -/
theorem roundsLeft_roundStep (f : InFlight) (h : roundsLeft f ≠ 0) : roundsLeft (roundStep f) + 1 = roundsLeft f := by
  have hc := roundStep_cmd f
  unfold roundsLeft at *
  rw [hc]
  unfold roundStep
  cases hcmd : f.cmd <;> simp_all [roundBlk, roundBlkSnap, roundInvp] <;> omega

/-! The commit. -/

@[simp] theorem settle_accept (s : State) (f : InFlight) :
    settle (s.accept f) = commit (roundSteps (roundsLeft f) f) (s.accept f) := rfl

@[simp] theorem commit_bank (f : InFlight) (s : State) (b : BankNo) : (commit f s).bank b = (commitWrites f s).bank b := rfl

@[simp] theorem commit_bankWord (f : InFlight) (s : State) (b : BankNo) (w : WordNo) :
    (commit f s).bankWord b w = (commitWrites f s).bankWord b w := rfl

@[simp] theorem commit_busy (f : InFlight) (s : State) : (commit f s).busy = false := rfl

/-- A commit does not look at what the sequencer holds besides the command it is given. -/
theorem commit_setInFlight (f : InFlight) (s : State) (g : Option InFlight) : commit f (s.setInFlight g) = commit f s := by
  unfold commit commitWrites
  cases f.cmd <;> rfl

/-- What a commit leaves alone. -/
theorem commitWrites_frame (f : InFlight) (s : State) :
    (∀ b, b ∉ destinations f.cmd →
      (commitWrites f s).bank b = s.bank b ∧ (commitWrites f s).writtenMask b = s.writtenMask b) ∧
    (∀ b, b ∈ destinations f.cmd → (commitWrites f s).writtenMask b = allWords) ∧
    (writesCounters f.cmd = false →
      (commitWrites f s).matchCnt = s.matchCnt ∧ (commitWrites f s).trialCnt = s.trialCnt ∧
        (commitWrites f s).cmpr = s.cmpr) ∧
    (commitWrites f s).err = s.err ∧ (commitWrites f s).errCode = s.errCode ∧
    SameWorld s (commitWrites f s) ∧ (commitWrites f s).readUnwritten = s.readUnwritten := by
  unfold commitWrites
  split <;> rename_i h <;> rw [h] <;>
    simp +contextual [destinations, writesCounters, isCompare, SameWorld, commitNop, commitQr, commitIqr, commitBlk,
      commitBlkSnap, commitInvp, commitAdd, commitSub, commitCopy, commitConst, commitXbit, commitRotl, commitRotr,
      commitCmp2, commitCmp4, commitClrc, State.bank_writeBank, State.writtenMask_writeBank]

/-! A move of the sequencer. -/

theorem sequencerTurn_cases (s : State) :
    (s.inFlight = none ∧ sequencerTurn s = s) ∨
    (∃ f, s.inFlight = some f ∧ roundsLeft f ≠ 0 ∧ sequencerTurn s = s.setInFlight (some (roundStep f))) ∨
    (∃ f, s.inFlight = some f ∧ roundsLeft f = 0 ∧ sequencerTurn s = commit f s) := by
  unfold sequencerTurn
  split
  · exact .inl ⟨‹_›, rfl⟩
  · rename_i f hf
    split
    · exact .inr (.inr ⟨f, hf, ‹_›, rfl⟩)
    · exact .inr (.inl ⟨f, hf, ‹_›, rfl⟩)

/-! Executing a command: it always answers a next state, and touches no bank, counter, CMPR or field of the outside world. -/

theorem exec_next (i : Instr) (s : State) : ∃ t, exec i s = .next t ∧ SameCore s t ∧ SameWorld s t := by
  cases i <;>
    simp only [exec, execNop, execQr, execIqr, execBlk, execBlkSnap, execInvp, execAdd, execSub, execCopy, execConst,
      execXbit, execRotl, execRotr, execCmp2, execCmp4, execClrc] <;>
    (try split) <;>
    refine ⟨_, rfl, ?_, ?_⟩ <;>
    simp [SameCore, SameWorld, State.issueOne, State.issueTwo, State.issueRounds, State.issueSnap, State.issueUpper,
      State.issueCompare2, State.issueCompare4]

/-! A bus access. -/

/-- An access answers a next state; it never writes CMPR, it writes a counter only where it addresses one, and a bank only
where it writes one of its words while BUSY = 0. -/
theorem busAccess_frame (a : Access) (s : State) :
    ∃ t, busAccess a s = .next t ∧ t.cmpr = s.cmpr ∧ t.schedule = s.schedule ∧ t.inReset = s.inReset ∧
      (writesCounterReg (.access a) = false → t.matchCnt = s.matchCnt ∧ t.trialCnt = s.trialCnt) ∧
      ∀ b, t.bank b = s.bank b ∨ ∃ v off w, a = ⟨.write v, .w32, off⟩ ∧ regOf off = .bank b w ∧ s.busy = false := by
  unfold busAccess
  split
  · rename_i hwf
    split
    · refine ⟨_, rfl, ?_⟩
      cases regOf a.off <;> simp only [readReg, State.answerIdle, State.noteHostRead] <;> (repeat' split) <;>
        exact ⟨rfl, rfl, rfl, fun _ => ⟨rfl, rfl⟩, fun _ => .inl rfl⟩
    · rename_i v hk
      have ha : a = ⟨.write v, .w32, a.off⟩ := by
        obtain ⟨k, w, o⟩ := a
        simp [Access.wellFormed] at hwf hk
        simp [hk, hwf]
      cases hreg : regOf a.off <;> simp only [writeReg, unlessBusy, present]
      case cmd =>
        split
        · exact ⟨_, rfl, rfl, rfl, rfl, fun _ => ⟨rfl, rfl⟩, fun _ => .inl rfl⟩
        · split
          · exact ⟨_, rfl, rfl, rfl, rfl, fun _ => ⟨rfl, rfl⟩, fun _ => .inl rfl⟩
          · rename_i i _
            obtain ⟨t, h, ⟨b1, b2, b3, b4, b5⟩, ⟨c1, c2, c3, c4⟩⟩ := exec_next i (s.respond .done)
            exact ⟨t, h, b5, c1, c3, fun _ => ⟨b3, b4⟩, fun b => .inl (by simp [State.bank, b1])⟩
      case bank b w =>
        refine ⟨_, rfl, ?_⟩
        split
        · exact ⟨rfl, rfl, rfl, fun _ => ⟨rfl, rfl⟩, fun _ => .inl rfl⟩
        · rename_i hb
          refine ⟨rfl, rfl, rfl, fun _ => ⟨rfl, rfl⟩, fun b' => ?_⟩
          by_cases e : b' = b
          · subst e
            exact .inr ⟨v, a.off, w, ha, hreg, by simpa using hb⟩
          · left
            simp [State.bank_writeWord, e]
      case matchCnt =>
        refine ⟨_, rfl, ?_⟩
        split
        · exact ⟨rfl, rfl, rfl, fun _ => ⟨rfl, rfl⟩, fun _ => .inl rfl⟩
        · refine ⟨rfl, rfl, rfl, fun hw => ?_, fun _ => .inl rfl⟩
          rw [ha] at hw
          simp [writesCounterReg, hreg] at hw
      case trialCnt =>
        refine ⟨_, rfl, ?_⟩
        split
        · exact ⟨rfl, rfl, rfl, fun _ => ⟨rfl, rfl⟩, fun _ => .inl rfl⟩
        · refine ⟨rfl, rfl, rfl, fun hw => ?_, fun _ => .inl rfl⟩
          rw [ha] at hw
          simp [writesCounterReg, hreg] at hw
      case status =>
        refine ⟨_, rfl, ?_⟩
        split <;> exact ⟨rfl, rfl, rfl, fun _ => ⟨rfl, rfl⟩, fun _ => .inl rfl⟩
      all_goals exact ⟨_, rfl, rfl, rfl, rfl, fun _ => ⟨rfl, rfl⟩, fun _ => .inl rfl⟩
  · exact ⟨_, rfl, rfl, rfl, rfl, fun _ => ⟨rfl, rfl⟩, fun _ => .inl rfl⟩

theorem Access.wellFormed_w32 (k : AccessKind) (off : BitVec 10) (h : off.toNat % 4 = 0) :
    Access.wellFormed ⟨k, .w32, off⟩ = true := by
  have h2 : off.extractLsb' 0 2 = 0#2 := BitVec.eq_of_toNat_eq (by simpa using h)
  simp [Access.wellFormed, h2]

theorem step_access (s : State) (a : Access) (rest : List Turn) (hr : s.inReset = false) :
    step (s.setSchedule (.access a :: rest)) = busAccess a (s.setSchedule rest) := by
  show (if s.inReset then _ else _) = _
  rw [hr]
  rfl

theorem step_memWrite (s : State) (off : BitVec 10) (v : Word) (rest : List Turn) (hr : s.inReset = false)
    (h : off.toNat % 4 = 0) :
    step (s.setSchedule (memWrite off v :: rest)) = writeReg (regOf off) v ((s.setSchedule rest).respond .done) := by
  rw [memWrite, step_access s _ rest hr, busAccess, if_pos (Access.wellFormed_w32 _ off h)]

theorem step_memRead (s : State) (off : BitVec 10) (rest : List Turn) (hr : s.inReset = false) (h : off.toNat % 4 = 0) :
    step (s.setSchedule (memRead off :: rest)) = .next (readReg (regOf off) (s.setSchedule rest)) := by
  rw [memRead, step_access s _ rest hr, busAccess, if_pos (Access.wellFormed_w32 _ off h)]

/-- A state is itself with its own schedule set. -/
theorem State.eq_setSchedule (s : State) (l : List Turn) (h : s.schedule = l) : s = s.setSchedule l := by
  cases s
  simp_all [State.setSchedule]

/-! The strict step: it adds stops to `step` and nothing else. -/

theorem strictStep_of_next {s t : State} (h : step s = .next t) :
    strictStep s = (strictFault s t).elim (.next t) .fault := by
  simp only [strictStep, h]
  cases strictFault s t <;> rfl

theorem strictStep_cases (s : State) : strictStep s = step s ∨ ∃ r, strictStep s = .fault r := by
  unfold strictStep
  split
  · split
    · exact .inr ⟨_, rfl⟩
    · exact .inl (by simp [*])
  · exact .inr ⟨_, rfl⟩
  · exact .inl (by simp [*])

/-- The next move is an access, and the access is malformed exactly when `movesMalformed` says so. -/
theorem movesMalformed_access (s : State) (a : Access) (rest : List Turn) :
    movesMalformed (s.setSchedule (.access a :: rest)) = !a.wellFormed := rfl

/-! A step: the reset line, a move of the sequencer, or an access. -/

theorem step_cases {s t : State} (h : step s = .next t) :
    (∃ a rest, s.schedule = .resetLine a :: rest ∧ t = (s.setSchedule rest).driveReset a) ∨
    (∃ l, (s.schedule = [] ∧ l = [] ∨ s.schedule = .sequencer :: l) ∧ t = sequencerTurn (s.setSchedule l)) ∨
    (∃ a rest, s.schedule = .access a :: rest ∧ s.inReset = false ∧ busAccess a (s.setSchedule rest) = .next t) := by
  unfold step takeTurn at h
  split at h
  · rename_i e
    cases h
    refine .inr (.inl ⟨[], .inl ⟨e, rfl⟩, ?_⟩)
    rw [← s.eq_setSchedule _ e]
  · rename_i l e
    cases h
    exact .inr (.inl ⟨l, .inr e, rfl⟩)
  · rename_i a l e
    cases h
    exact .inl ⟨a, l, e, rfl⟩
  · rename_i a l e
    split at h
    · cases h
    · rename_i hr
      exact .inr (.inr ⟨a, l, e, by simpa using hr, h⟩)

end Sys2Proof.Machine
end

