-- ==== Sys2Proof/Laws/Host.lean ====
section
/-! SUPPORT. What running the host's moves can do: moves in two parts, what the host reads of CMPR and the counters, what a
trial, a batch and the bias of R99 return, and what the check of R106 lets through. -/

namespace Sys2Proof.Machine

@[simp] theorem andThen_next {α β : Type} (a : α) (f : α → Host.Outcome β Fault Refusal) : andThen (.next a) f = f a := rfl
@[simp] theorem andThen_fault {α β : Type} (r : Fault) (f : α → Host.Outcome β Fault Refusal) :
    andThen (.fault r) f = .fault r := rfl
@[simp] theorem andThen_refused {α β : Type} (r : Refusal) (f : α → Host.Outcome β Fault Refusal) :
    andThen (.refused r) f = .refused r := rfl

theorem andThen_assoc {α β γ : Type} (o : Host.Outcome α Fault Refusal) (f : α → Host.Outcome β Fault Refusal)
    (g : β → Host.Outcome γ Fault Refusal) : andThen (andThen o f) g = andThen o fun a => andThen (f a) g := by
  cases o <;> rfl

theorem runMoves_append (l m : List Turn) (s : State) : runMoves (l ++ m) s = andThen (runMoves l s) (runMoves m) := by
  induction l generalizing s with
  | nil => rfl
  | cons a l ih =>
    rw [List.cons_append, runMoves, runMoves, andThen_assoc]
    congr 1
    funext t
    exact ih t

/-- A read at a multiple of 4, as a move of the host. -/
theorem runMoves_memRead (off : BitVec 10) (s : State) (hr : s.inReset = false) (h : off.toNat % 4 = 0) :
    runMoves [memRead off] s = .next (readReg (regOf off) (s.setSchedule [])) := by
  rw [runMoves, step_memRead s off [] hr h]
  rfl

/-- A read of a counter or CMPR on an idle core gives the register and answers it. -/
theorem answerIdle_of_idle (s : State) (v : Word) (hi : s.inFlight = none) : s.answerIdle v = s.respond (.data v) := by
  simp [State.answerIdle, State.answer, State.busy, hi]

theorem runMoves_read_cmpr (s : State) (hr : s.inReset = false) (hi : s.inFlight = none) :
    runMoves [memRead 0x210#10] s = .next ((s.setSchedule []).respond (.data s.cmpr)) := by
  rw [runMoves_memRead _ _ hr (by decide), show regOf 0x210#10 = .cmpr by decide, readReg,
    answerIdle_of_idle _ _ (by simpa using hi)]
  rfl

theorem hostRead_matchCnt (s : State) (hr : s.inReset = false) (hi : s.inFlight = none) :
    hostRead 0x208#10 s = .next (s.matchCnt, (s.setSchedule []).respond (.data s.matchCnt)) := by
  rw [hostRead, runMoves_memRead _ _ hr (by decide), show regOf 0x208#10 = .matchCnt by decide, readReg,
    answerIdle_of_idle _ _ (by simpa using hi)]
  rfl

theorem hostRead_trialCnt (s : State) (hr : s.inReset = false) (hi : s.inFlight = none) :
    hostRead 0x20C#10 s = .next (s.trialCnt, (s.setSchedule []).respond (.data s.trialCnt)) := by
  rw [hostRead, runMoves_memRead _ _ hr (by decide), show regOf 0x20C#10 = .trialCnt by decide, readReg,
    answerIdle_of_idle _ _ (by simpa using hi)]
  rfl

/-- R98, R99, R100: a trial whose commands leave the core idle in state `t` returns CMPR.M of `t`. -/
theorem runTrial_returns_match (x : Block) (trial : List Instr) (s t : State)
    (h : runMoves (loadMoves 0#3 x 0 ++ trial.flatMap commandMoves) s = .next t) (hr : t.inReset = false)
    (hi : t.inFlight = none) :
    runTrial x trial s = .next (t.cmpr.getLsbD 0, (t.setSchedule []).respond (.data t.cmpr)) := by
  rw [runTrial, trialMoves, runMoves_append, h, andThen_next, runMoves_read_cmpr t hr hi]
  rfl

/-- R99, R105: a batch that leaves the core idle in state `t` counts what MATCH_CNT and TRIAL_CNT of `t` hold. -/
theorem countBatch_returns_counters (batch : List Block) (trial : List Instr) (s t : State)
    (h : runMoves (populationMoves batch trial) s = .next t) (hr : t.inReset = false) (hi : t.inFlight = none) :
    ∃ u, countBatch batch trial s = .next ((t.matchCnt.toNat, t.trialCnt.toNat), u) := by
  rw [countBatch, h, andThen_next, hostRead_matchCnt t hr hi, andThen_next,
    hostRead_trialCnt _ (by simpa using hr) (by simpa using hi)]
  exact ⟨_, rfl⟩

/-! The check of R106. -/

@[simp] theorem ifAccepted_true {α : Type} (o : Host.Outcome α Fault Refusal) : ifAccepted true o = .ran o := rfl
@[simp] theorem ifAccepted_false {α : Type} (o : Host.Outcome α Fault Refusal) :
    ifAccepted false o = .configurationError := rfl

theorem ifAccepted_eq_error_iff {α : Type} (b : Bool) (o : Host.Outcome α Fault Refusal) :
    ifAccepted b o = .configurationError ↔ b = false := by
  cases b <;> simp

theorem TrialConfig.accepts_iff (c : TrialConfig) :
    c.accepts = true ↔ c.diffBit < 32 ∧ c.outputBit < 32 ∧ c.diffWord < 16 ∧ c.outputWord < 16 ∧ 4 ≤ c.diffWord := by
  simp [TrialConfig.accepts, and_assoc]

theorem PnbConfig.accepts_iff (c : PnbConfig) :
    c.accepts = true ↔ c.toTrialConfig.accepts = true ∧ c.boundary.toNat ≤ c.rounds.toNat := by
  simp [PnbConfig.accepts]

theorem candidateAccepts_iff (f i : Nat) : candidateAccepts f i = true ↔ (4 ≤ f ∧ f < 16) ∧ i < 32 := by
  simp [candidateAccepts]

theorem populationAccepts_iff (l : List Block) : populationAccepts l = true ↔ l ≠ [] := by
  cases l <;> simp [populationAccepts]

theorem rangeWithin_iff (lo hi least bound : Nat) :
    rangeWithin lo hi least bound = true ↔ ∀ n, lo ≤ n → n < hi → least ≤ n ∧ n < bound := by
  simp only [rangeWithin, Bool.or_eq_true, Bool.and_eq_true, decide_eq_true_eq]
  constructor
  · intro h n h1 h2
    omega
  · intro h
    by_cases hl : hi ≤ lo
    · exact .inl hl
    · have h1 := h lo (by omega) (by omega)
      have h2 := h (hi - 1) (by omega) (by omega)
      omega

theorem mem_candidates (c : HostConfig) (f i : Nat) :
    (f, i) ∈ c.candidates ↔ (c.wordLo ≤ f ∧ f < c.wordHi) ∧ c.bitLo ≤ i ∧ i < c.bitHi := by
  simp only [HostConfig.candidates, sweepCandidates, List.mem_flatMap, List.mem_map, List.mem_range'_1, Prod.mk.injEq]
  constructor
  · rintro ⟨a, ha, b, hb, rfl, rfl⟩
    omega
  · intro h
    exact ⟨f, by omega, i, by omega, rfl, rfl⟩

/-- R106: an accepted sweep has a trial for no candidate that the check would turn away, K ≤ R and a population. -/
theorem hostAccepts_candidates (c : HostConfig) (h : hostAccepts c = true) :
    c.toPnbConfig.accepts = true ∧ c.population ≠ [] ∧ ∀ f i, (f, i) ∈ c.candidates → candidateAccepts f i = true := by
  simp only [hostAccepts, Bool.and_eq_true, populationAccepts_iff, rangeWithin_iff] at h
  obtain ⟨⟨⟨hp, hn⟩, hw⟩, hb⟩ := h
  refine ⟨hp, hn, fun f i hm => ?_⟩
  obtain ⟨⟨w1, w2⟩, b1, b2⟩ := (mem_candidates c f i).1 hm
  exact (candidateAccepts_iff f i).2 ⟨hw f w1 w2, (hb i b1 b2).2⟩

/-- The word and the bit of an accepted candidate are what its commands carry: nothing is cut off. -/
theorem candidate_fields (f i : Nat) (h : candidateAccepts f i = true) :
    (BitVec.ofNat 4 f).toNat = f ∧ (BitVec.ofNat 5 i).toNat = i := by
  have := (candidateAccepts_iff f i).1 h
  simp only [BitVec.toNat_ofNat]
  omega

/-- The words and the bits of an accepted configuration are what its commands carry. -/
theorem TrialConfig.fields (c : TrialConfig) (h : c.accepts = true) :
    (BitVec.ofNat 4 c.diffWord).toNat = c.diffWord ∧ (BitVec.ofNat 5 c.diffBit).toNat = c.diffBit ∧
      (BitVec.ofNat 4 c.outputWord).toNat = c.outputWord ∧ (BitVec.ofNat 5 c.outputBit).toNat = c.outputBit := by
  have := c.accepts_iff.1 h
  simp only [BitVec.toNat_ofNat]
  omega

/-- R106: no command of an accepted PNB trial is rejected with E_RANGE. -/
theorem PnbConfig.commands_wellFormed (c : PnbConfig) (h : c.accepts = true) (f i : Nat) :
    ∀ cmd ∈ c.commands f i, cmd.WellFormed := by
  have := (c.accepts_iff.1 h).2
  simp [PnbConfig.commands, pnbTrial, Instr.WellFormed, Instr.inRange, this]

/-- R106: a sweep is rejected exactly when its configuration is, and then makes no move. -/
theorem sweep_rejected_iff (c : HostConfig) (s : State) : sweep c s = .configurationError ↔ hostAccepts c = false :=
  ifAccepted_eq_error_iff _ _

/-- R99, R103: the bias of a batch is that of the final counters. -/
theorem estimateBias_of_final_counters (batch : List Block) (c : TrialConfig) (s t : State)
    (ha : c.accepts = true) (hn : batch ≠ []) (h : runMoves (populationMoves batch c.commands) s = .next t)
    (hr : t.inReset = false) (hi : t.inFlight = none) :
    ∃ u, estimateBias batch c s = .ran (.next (bias t.matchCnt.toNat t.trialCnt.toNat, u)) := by
  obtain ⟨u, hu⟩ := countBatch_returns_counters batch _ s t h hr hi
  rw [estimateBias, ha, (populationAccepts_iff batch).2 hn, hu]
  exact ⟨u, rfl⟩

end Sys2Proof.Machine
end

