-- ==== Sys2Proof/Laws/PerInstr.lean ====
section
/-! SUPPORT. The statement made of every command as syntax: its word belongs to its row of the opcode map (R57), so its
opcode is the row's and its reserved bits are 0. -/

namespace Sys2Proof.Laws.InRow

/-- The word of the command is accepted by the command's row. -/
def Statement (i : Instr) : Prop := (rowOf i).accepts (encode i) = true

/-- A mask distributes over the fields of a word. -/
theorem or_masked (x y m : Word) : (x ||| y) &&& m = (x &&& m) ||| (y &&& m) := by
  apply BitVec.eq_of_getLsbD_eq
  intro i hi
  simp only [BitVec.getLsbD_and, BitVec.getLsbD_or, Bool.and_or_distrib_right]

/-- A field that the mask leaves free adds nothing to the masked word. -/
theorem field_masked {n : Nat} (x : BitVec n) (lo : Nat) (m : Word) (h : ∀ i : Fin n, m.getLsbD (lo + i.val) = false) :
    place x lo &&& m = 0#32 := by
  apply BitVec.eq_of_getLsbD_eq
  intro i hi
  rw [BitVec.getLsbD_and, BitVec.getLsbD_zero, Bool.and_eq_false_iff]
  by_cases hb : lo ≤ i ∧ i < lo + n
  · right
    have := h ⟨i - lo, by omega⟩
    rwa [show lo + (i - lo) = i by omega] at this
  · left
    simp only [place, BitVec.getLsbD_shiftLeft, BitVec.getLsbD_setWidth]
    by_cases hl : i < lo
    · simp [hl]
    · rw [x.getLsbD_of_ge (i - lo) (by omega)]
      simp

theorem nop : Statement (.nop) := by
  unfold Statement
  decide

theorem qr (d a : BankNo) (g : GroupNo) : Statement (.qr d a g) := by
  simp only [Statement, rowOf, Row.accepts, rowQr, encode, formatQ, or_masked]
  rw [field_masked d 24, field_masked a 21, field_masked g 18] <;> decide

theorem iqr (d a : BankNo) (g : GroupNo) : Statement (.iqr d a g) := by
  simp only [Statement, rowOf, Row.accepts, rowIqr, encode, formatQ, or_masked]
  rw [field_masked d 24, field_masked a 21, field_masked g 18] <;> decide

theorem blk (d a : BankNo) (r : RoundNo) (f : Bool) : Statement (.blk d a r f) := by
  simp only [Statement, rowOf, Row.accepts, rowBlk, encode, formatT, or_masked]
  rw [field_masked d 24, field_masked a 21, field_masked r 13, field_masked (BitVec.ofBool f) 6] <;> decide

theorem blkSnap (d a p : BankNo) (r k : RoundNo) (f : Bool) : Statement (.blkSnap d a p r k f) := by
  simp only [Statement, rowOf, Row.accepts, rowBlkSnap, encode, formatT, or_masked]
  rw [field_masked d 24, field_masked a 21, field_masked p 18, field_masked r 13, field_masked k 8, field_masked (BitVec.ofBool f) 6] <;> decide

theorem invp (d a : BankNo) (hi lo : RoundNo) : Statement (.invp d a hi lo) := by
  simp only [Statement, rowOf, Row.accepts, rowInvp, encode, formatT, or_masked]
  rw [field_masked d 24, field_masked a 21, field_masked hi 13, field_masked lo 8] <;> decide

theorem add (d a b : BankNo) : Statement (.add d a b) := by
  simp only [Statement, rowOf, Row.accepts, rowAdd, encode, formatQ, or_masked]
  rw [field_masked d 24, field_masked a 21, field_masked b 18] <;> decide

theorem sub (d a b : BankNo) : Statement (.sub d a b) := by
  simp only [Statement, rowOf, Row.accepts, rowSub, encode, formatQ, or_masked]
  rw [field_masked d 24, field_masked a 21, field_masked b 18] <;> decide

theorem copy (d a : BankNo) : Statement (.copy d a) := by
  simp only [Statement, rowOf, Row.accepts, rowCopy, encode, formatQ, or_masked]
  rw [field_masked d 24, field_masked a 21] <;> decide

theorem const (d a : BankNo) : Statement (.const d a) := by
  simp only [Statement, rowOf, Row.accepts, rowConst, encode, formatQ, or_masked]
  rw [field_masked d 24, field_masked a 21] <;> decide

theorem xbit (d a : BankNo) (w : WordNo) (n : BitNo) : Statement (.xbit d a w n) := by
  simp only [Statement, rowOf, Row.accepts, rowXbit, encode, formatC, or_masked]
  rw [field_masked d 24, field_masked a 21, field_masked w 11, field_masked n 6] <;> decide

theorem rotl (d a : BankNo) (w : WordNo) (n : BitNo) : Statement (.rotl d a w n) := by
  simp only [Statement, rowOf, Row.accepts, rowRotl, encode, formatC, or_masked]
  rw [field_masked d 24, field_masked a 21, field_masked w 11, field_masked n 6] <;> decide

theorem rotr (d a : BankNo) (w : WordNo) (n : BitNo) : Statement (.rotr d a w n) := by
  simp only [Statement, rowOf, Row.accepts, rowRotr, encode, formatC, or_masked]
  rw [field_masked d 24, field_masked a 21, field_masked w 11, field_masked n 6] <;> decide

theorem cmp2 (k0 k1 : BankNo) (w : WordNo) (n : BitNo) : Statement (.cmp2 k0 k1 w n) := by
  simp only [Statement, rowOf, Row.accepts, rowCmp2, encode, formatC, or_masked]
  rw [field_masked k0 24, field_masked k1 21, field_masked w 11, field_masked n 6] <;> decide

theorem cmp4 (k0 k1 k2 k3 : BankNo) (w : WordNo) (n : BitNo) : Statement (.cmp4 k0 k1 k2 k3 w n) := by
  simp only [Statement, rowOf, Row.accepts, rowCmp4, encode, formatC, or_masked]
  rw [field_masked k0 24, field_masked k1 21, field_masked k2 18, field_masked k3 15, field_masked w 11, field_masked n 6] <;> decide

theorem clrc : Statement (.clrc) := by
  unfold Statement
  decide

/-- Every command's word is in its row. -/
theorem all (i : Instr) : Statement i := by
  cases i with
  | nop => exact InRow.nop
  | qr d a g => exact InRow.qr d a g
  | iqr d a g => exact InRow.iqr d a g
  | blk d a r f => exact InRow.blk d a r f
  | blkSnap d a p r k f => exact InRow.blkSnap d a p r k f
  | invp d a hi lo => exact InRow.invp d a hi lo
  | add d a b => exact InRow.add d a b
  | sub d a b => exact InRow.sub d a b
  | copy d a => exact InRow.copy d a
  | const d a => exact InRow.const d a
  | xbit d a w n => exact InRow.xbit d a w n
  | rotl d a w n => exact InRow.rotl d a w n
  | rotr d a w n => exact InRow.rotr d a w n
  | cmp2 k0 k1 w n => exact InRow.cmp2 k0 k1 w n
  | cmp4 k0 k1 k2 k3 w n => exact InRow.cmp4 k0 k1 k2 k3 w n
  | clrc => exact InRow.clrc

end Sys2Proof.Laws.InRow
end

