-- ==== Sys2Proof/Tests/Slice0.lean ====
section
/-! SUPPORT. Tests: ill-formed commands refused; the words of every constructor, written out field by field from
spec/30_encoding.md R50 to R57; one step per command with the values of spec/95_test_vectors.md; and, for every statement
of Certificates/Slice0/Obligations.lean that has hypotheses, a witness of them. -/

namespace Sys2Proof.Tests

open Sys2Proof Sys2Proof.Machine Sys2Proof.Safety

-- One theorem at a time: many kernel evaluations in flight at once need too many threads.
set_option Elab.async false

/-! ## WellFormed -/

theorem test_wf_refuses_snapshot_after_the_last_round : (Instr.blkSnap 1 0 2 2 3 false).inRange = false := by decide
theorem test_wf_refuses_lo_above_hi : (Instr.invp 3 1 2 3).inRange = false := by decide
theorem test_wf_refuses_rotl_by_0 : (Instr.rotl 1 0 5 0).inRange = false := by decide
theorem test_wf_refuses_rotr_by_0 : (Instr.rotr 1 0 5 0).inRange = false := by decide
theorem test_wf_takes_the_bounds :
    (Instr.blkSnap 1 0 2 2 2 false).WellFormed ∧ (Instr.invp 3 1 2 2).WellFormed ∧ (Instr.rotl 1 0 5 1).WellFormed ∧
      (Instr.rotr 1 0 5 31).WellFormed := by decide

/-! ## Decode: the fields of a word from bit 31 down -/

theorem test_decode_nop : decode (0#5 ++ 0#27) = .ok .nop := by decide
theorem test_decode_qr : decode (1#5 ++ 3#3 ++ 0#3 ++ 5#3 ++ 0#18) = .ok (.qr 3 0 5) := by decide
theorem test_decode_iqr : decode (2#5 ++ 2#3 ++ 1#3 ++ 0#3 ++ 0#18) = .ok (.iqr 2 1 0) := by decide
theorem test_decode_blk :
    decode (3#5 ++ 1#3 ++ 6#3 ++ 0#3 ++ 20#5 ++ 0#5 ++ 0#1 ++ 1#1 ++ 0#6) = .ok (.blk 1 6 20 true) := by decide
theorem test_decode_blkSnap :
    decode (3#5 ++ 2#3 ++ 0#3 ++ 4#3 ++ 20#5 ++ 3#5 ++ 1#1 ++ 0#1 ++ 0#6) = .ok (.blkSnap 2 0 4 20 3 false) := by decide
theorem test_decode_invp :
    decode (4#5 ++ 6#3 ++ 5#3 ++ 0#3 ++ 20#5 ++ 3#5 ++ 0#2 ++ 0#6) = .ok (.invp 6 5 20 3) := by decide
theorem test_decode_add : decode (5#5 ++ 2#3 ++ 0#3 ++ 1#3 ++ 0#18) = .ok (.add 2 0 1) := by decide
theorem test_decode_sub : decode (6#5 ++ 6#3 ++ 2#3 ++ 5#3 ++ 0#18) = .ok (.sub 6 2 5) := by decide
theorem test_decode_copy : decode (7#5 ++ 5#3 ++ 4#3 ++ 0#21) = .ok (.copy 5 4) := by decide
theorem test_decode_const : decode (8#5 ++ 1#3 ++ 7#3 ++ 0#21) = .ok (.const 1 7) := by decide
theorem test_decode_xbit :
    decode (9#5 ++ 1#3 ++ 0#3 ++ 0#6 ++ 13#4 ++ 14#5 ++ 0#6) = .ok (.xbit 1 0 13 14) := by decide
theorem test_decode_rotl :
    decode (10#5 ++ 7#3 ++ 3#3 ++ 0#6 ++ 5#4 ++ 16#5 ++ 0#6) = .ok (.rotl 7 3 5 16) := by decide
theorem test_decode_rotr :
    decode (11#5 ++ 1#3 ++ 0#3 ++ 0#6 ++ 5#4 ++ 1#5 ++ 0#6) = .ok (.rotr 1 0 5 1) := by decide
theorem test_decode_cmp2 :
    decode (12#5 ++ 2#3 ++ 3#3 ++ 0#6 ++ 11#4 ++ 1#5 ++ 0#6) = .ok (.cmp2 2 3 11 1) := by decide
theorem test_decode_cmp4 :
    decode (13#5 ++ 4#3 ++ 5#3 ++ 6#3 ++ 7#3 ++ 11#4 ++ 30#5 ++ 0#6) = .ok (.cmp4 4 5 6 7 11 30) := by decide
theorem test_decode_clrc : decode (14#5 ++ 0#27) = .ok .clrc := by decide
/-- VE1, VE2. -/
theorem test_decode_opcode_15_and_31 :
    decode 0x78000000#32 = .error .opcode ∧ decode 0xF8000000#32 = .error .opcode := by decide
/-- VE3, VE4, VC14, VW11. -/
theorem test_decode_reserved_bits :
    decode 0x00000001#32 = .error .rsvd ∧ decode 0x70000100#32 = .error .rsvd ∧ decode 0x19084000#32 = .error .rsvd ∧
      decode 0x3D040000#32 = .error .rsvd := by decide

/-- The pattern of every row of spec/opcode_table.json decodes, through its byte lanes, to its constructor. -/
theorem test_table_rows_decode :
    ([0x00000000, 0x08000000, 0x10000000, 0x18000000, 0x18000080, 0x20000000, 0x28000000, 0x30000000, 0x38000000,
      0x40000000, 0x48000000, 0x50000000, 0x58000000, 0x60000000, 0x68000000, 0x70000000].map (decodeTableWord 32)) =
    [some .nop, some (.qr 0 0 0), some (.iqr 0 0 0), some (.blk 0 0 0 false), some (.blkSnap 0 0 0 0 0 false),
      some (.invp 0 0 0 0), some (.add 0 0 0), some (.sub 0 0 0), some (.copy 0 0), some (.const 0 0),
      some (.xbit 0 0 0 0), some (.rotl 0 0 0 0), some (.rotr 0 0 0 0), some (.cmp2 0 0 0 0),
      some (.cmp4 0 0 0 0 0 0), some .clrc] := by decide

/-! ## One step per command -/

/-- The reference state S0 of spec/95_test_vectors.md. -/
def s0 : Block :=
  #v[0x61707865, 0x3320646e, 0x79622d32, 0x6b206574, 4, 5, 6, 7, 8, 9, 10, 11, 12, 13, 14, 15]

/-- Every bank zero and written. -/
def clean : State :=
  { State.reset with banks := Vector.replicate 8 zeroBlock, written := Vector.replicate 8 0xFFFF#16 }

/-- The host writes `v` to CMD, and the command settles. -/
def run (v : Word) (s : State) : State :=
  match step (s.setSchedule [cmdWrite v]) with
  | .next t => settle t
  | .fault _ => s
  | .refused _ => s

/-- Bank 0 holds S0. -/
def withS0 : State := clean.writeBank 0 s0

/-- The end state of bank 1 in VC9: two rounds of S0. -/
def twoRounds : Block :=
  #v[0xa1fa16cd, 0x17029e95, 0x96b6deac, 0x6fd8c658, 0xf9a9d490, 0x39fe50a4, 0xe405ee26, 0xf7025914,
     0x981e3ece, 0xf5d16a44, 0xdf981404, 0x91c67551, 0xc5493fa8, 0xf41773a8, 0x7e93478a, 0x06bb837d]

/-- VF17: one round of S0, the columns. -/
def oneRound : Block :=
  #v[0xb7883fef, 0x16532aba, 0xe0f8d00b, 0xb1d32bd2, 0xe9e36099, 0x5285ee39, 0x24a0f54e, 0x03cdd425,
     0x65c40147, 0x9197cd9b, 0xfbdfe339, 0x0cb55dff, 0xed5e9fcf, 0x2d199a72, 0xcea969cd, 0xa740f2d4]

/-- VF18: the round S0 would have as diagonals. -/
theorem test_round_diagonals :
    fwdRound s0 1 = #v[0xb7886ff0, 0xb6533abb, 0xc0f9000c, 0xd1d33bcf, 0x3ac64536, 0xb20ae799, 0x598c5d06, 0x9d9d425e,
      0xfaade857, 0x0ac75add, 0x6573e249, 0x8f81cefd, 0x2b099bd2, 0xcd796eed, 0xa550efb4, 0xed0e80cf] := by
  decide +kernel

/-- R91: NOP passes through acceptance and commit and leaves every register. -/
theorem test_nop : (run 0x00000000 withS0).bank 0 = s0 ∧ (run 0x00000000 withS0).statusWord = 0 := by decide +kernel
/-- VC6. -/
theorem test_qr :
    (run 0x0B140000 withS0).bank 3 = #v[0x61707865, 0xb6533abb, 0x79622d32, 0x6b206574, 4, 5, 0x598c5d06, 7, 8, 9, 10,
      0x8f81cefd, 0x2b099bd2, 13, 14, 15] := by decide +kernel
/-- VC5. -/
theorem test_iqr :
    (run 0x12200000 (clean.writeBank 1 #v[0x70001003, 0, 0, 0, 0x8b89b9bb, 0, 0, 0, 0x07170373, 0, 0, 0, 0x07100370,
      0, 0, 0])).bank 2 = #v[1, 0, 0, 0, 2, 0, 0, 0, 3, 0, 0, 0, 4, 0, 0, 0] := by decide +kernel
/-- VC19: twenty rounds. -/
theorem test_blk_twenty_rounds :
    (run 0x19028000 withS0).bank 1 = #v[0x0991f7e7, 0x36fff7cc, 0xcc90dd79, 0x8a89defb, 0xfcc0c967, 0x95031526, 0x564acf14,
      0x2dd2f8e6, 0xf69db68d, 0x6ce38b16, 0xc08f3a7f, 0x9953e712, 0x9cff4efb, 0xc11b3c06, 0xe3a20e54, 0x6922a85a] := by
  decide +kernel
/-- VC8: no round, finalized. -/
theorem test_blk_finalize_doubles : (run 0x19000040 withS0).bank 1 = addBlocks s0 s0 := by decide +kernel
/-- VC9: the snapshot after one round, the destination after two. -/
theorem test_blkSnap :
    (run 0x19084180 withS0).bank 2 = oneRound ∧ (run 0x19084180 withS0).bank 1 = twoRounds := by decide +kernel
/-- VC12: one bank as source, destination and snapshot. -/
theorem test_blkSnap_destination_last :
    (run 0x180041C0 withS0).bankWord 0 0 = 0x036a8f32 ∧ (run 0x180041C0 withS0).bankWord 0 15 = 0x06bb838c := by
  decide +kernel
/-- VC15: the last round undone. -/
theorem test_invp : (run 0x23204100 (clean.writeBank 1 twoRounds)).bank 3 = oneRound := by decide +kernel
/-- VC18: lo > hi. -/
theorem test_invp_range : (run 0x23204300 (clean.writeBank 1 twoRounds)).statusWord = 0x00000032 := by decide +kernel
/-- VW1's lanes 0 and 2 wrap. -/
theorem test_add_wraps :
    (run 0x2A040000 ((clean.writeBank 0 #v[0xffffffff, 1, 0x80000000, 0x12345678, 0, 0, 0, 0, 0, 0, 0, 0, 0, 0, 0, 0]).writeBank
      1 #v[1, 0xffffffff, 0x80000000, 0x87654321, 0, 0, 0, 0, 0, 0, 0, 0, 0, 0, 0, 0])).bank 2 =
      #v[0, 0, 0, 0x99999999, 0, 0, 0, 0, 0, 0, 0, 0, 0, 0, 0, 0] := by decide +kernel
/-- VW3: the difference the other way round. -/
theorem test_sub_borrows :
    (run 0x32200000 ((clean.writeBank 0 #v[0xffffffff, 1, 0x80000000, 0x12345678, 0, 0, 0, 0, 0, 0, 0, 0, 0, 0, 0, 0]).writeBank
      1 #v[1, 0xffffffff, 0x80000000, 0x87654321, 0, 0, 0, 0, 0, 0, 0, 0, 0, 0, 0, 0])).bank 2 =
      #v[2, 0xfffffffe, 0, 0x7530eca9, 0, 0, 0, 0, 0, 0, 0, 0, 0, 0, 0, 0] := by decide +kernel
/-- VW6. -/
theorem test_copy : (run 0x3D000000 withS0).bank 5 = s0 := by decide +kernel
/-- VW8. -/
theorem test_const :
    (run 0x41000000 (clean.writeBank 0 (Vector.replicate 16 0xaaaaaaaa))).bank 1 =
      #v[0x61707865, 0x3320646e, 0x79622d32, 0x6b206574, 0xaaaaaaaa, 0xaaaaaaaa, 0xaaaaaaaa, 0xaaaaaaaa, 0xaaaaaaaa,
        0xaaaaaaaa, 0xaaaaaaaa, 0xaaaaaaaa, 0xaaaaaaaa, 0xaaaaaaaa, 0xaaaaaaaa, 0xaaaaaaaa] := by decide +kernel
/-- VW7: CONST reads words 4 to 15 alone, so words 0 to 3 may be unwritten. -/
theorem test_const_reads_upper_words :
    (run 0x40000000 { withS0 with written := Vector.replicate 8 0xFFF0#16 }).readUnwritten = false ∧
      (run 0x3D000000 { withS0 with written := Vector.replicate 8 0xFFF0#16 }).readUnwritten = true := by decide +kernel
/-- VW9. -/
theorem test_xbit : (run 0x49006B40 withS0).bank 1 = putWord s0 13 0x0000200d := by decide +kernel
/-- VC1. -/
theorem test_rotl : (run 0x50000400 (clean.writeBank 0 (putWord zeroBlock 0 1))).bank 0 = putWord zeroBlock 0 0x00010000 := by
  decide +kernel
/-- VC3: a rotation by 0. -/
theorem test_rotl_by_0 : (run 0x51002800 withS0).statusWord = 0x00000032 ∧ (run 0x51002800 withS0).bank 1 = zeroBlock := by
  decide +kernel
/-- VC2. -/
theorem test_rotr :
    (run 0x59002840 (clean.writeBank 0 (putWord zeroBlock 5 0x80000001))).bank 1 = putWord zeroBlock 5 0xc0000000 := by
  decide +kernel

/-- The start of VK1: words 11 of banks 2 and 3. -/
def compareStart : State := (clean.writeBank 2 (putWord zeroBlock 11 0xb)).writeBank 3 (putWord zeroBlock 11 0xa)

/-- VK1: no match. -/
theorem test_cmp2 :
    (run 0x62605800 compareStart).cmpr = 2 ∧ (run 0x62605800 compareStart).matchCnt = 0 ∧
      (run 0x62605800 compareStart).trialCnt = 1 := by decide +kernel
/-- VK5, then VK4's rejection. -/
theorem test_cmp2_at_the_end_of_the_counter :
    (run 0x62605800 ((compareStart.setTrialCnt 0xFFFFFFFE).setMatchCnt 0xFFFFFFFE)).trialCnt = 0xFFFFFFFF ∧
      (run 0x62605800 (compareStart.setTrialCnt 0xFFFFFFFF)).statusWord = 0x00000052 := by decide +kernel

/-- Bank k word 11 is 1 exactly where the k-th bit of the row is. -/
def compare4Start (a b c d : Word) : State :=
  (((clean.writeBank 0 (putWord zeroBlock 11 a)).writeBank 1 (putWord zeroBlock 11 b)).writeBank 2
    (putWord zeroBlock 11 c)).writeBank 3 (putWord zeroBlock 11 d)

/-- Rows 0 1 0 1 and 0 1 1 1 of the CMP4 table. -/
theorem test_cmp4 :
    (run 0x6829D800 (compare4Start 0 1 0 1)).cmpr = 0x15 ∧ (run 0x6829D800 (compare4Start 0 1 0 1)).matchCnt = 1 ∧
      (run 0x6829D800 (compare4Start 0 1 1 1)).cmpr = 0x1c ∧ (run 0x6829D800 (compare4Start 0 1 1 1)).matchCnt = 0 := by
  decide +kernel
/-- VK6. -/
theorem test_clrc :
    (run 0x70000000 (((clean.setMatchCnt 5).setTrialCnt 9).setCmpr 3)).matchCnt = 0 ∧
      (run 0x70000000 (((clean.setMatchCnt 5).setTrialCnt 9).setCmpr 3)).trialCnt = 0 ∧
      (run 0x70000000 (((clean.setMatchCnt 5).setTrialCnt 9).setCmpr 3)).cmpr = 0 := by decide +kernel

/-! ## The window, errors and reset -/

/-- BLK b1, b0, 20, fin in flight after three rounds. -/
def busyJob : InFlight :=
  { roundJob (.blk 1 0 20 true) s0 3 with work := forward s0 0 3 }

/-- A state with that command in flight. -/
def busyState : State := withS0.accept busyJob

/-- What the host's next move leaves of a state. -/
def after (m : Turn) (s : State) : State :=
  match step (s.setSchedule [m]) with
  | .next t => t
  | .fault _ => s
  | .refused _ => s

/-- VE5, VE6: the first error is kept, and a write of 2 to STATUS clears it. -/
theorem test_first_error_kept :
    (run 0x23204300 (run 0x78000000 clean)).statusWord = 0x00000012 ∧
      (after (memWrite 0x204 2) (run 0x78000000 clean)).statusWord = 0 := by decide +kernel
/-- VE7: a CMD write while BUSY = 1 is dropped with E_BUSY, and the command in flight still commits. -/
theorem test_busy_cmd_write :
    (after (cmdWrite 0) busyState).statusWord = 0x00000043 ∧
      (settle (after (cmdWrite 0) busyState)).bankWord 1 0 = (settle busyState).bankWord 1 0 := by decide +kernel
/-- VE8, VE10. -/
theorem test_busy_bank_write_and_id_read :
    (after (memWrite 0x000 7) busyState).bank 0 = s0 ∧ (after (memWrite 0x000 7) busyState).errCode = 4 ∧
      (after (memRead 0x214) busyState).response = .data 0x43433230 := by decide +kernel
/-- VE11 to VE14. -/
theorem test_bus_errors_and_reserved :
    (after (.access ⟨.read, .w8, 0x214⟩) clean).statusWord = 0x00000062 ∧
      (after (memRead 0x206) clean).response = .busError ∧ (after (memRead 0x300) clean).response = .data 0 ∧
      (after (memRead 0x220) (after (memWrite 0x220 0x12345678) clean)).response = .data 0x61707865 := by decide +kernel
/-- VE11 in the strict reading: a fault of the host program (R37, I14), though not for an aligned access. -/
theorem test_strict_malformed_access :
    (match strictStep (clean.setSchedule [.access ⟨.read, .w8, 0x214⟩]) with
      | .next _ => none
      | .fault r => some r
      | .refused _ => none) = some Fault.malformedAccess ∧
    movesMalformed (clean.setSchedule [memRead 0x214]) = false := by decide +kernel
/-- R31 to R33: the last word of the last bank. -/
theorem test_last_bank_word : (after (memWrite 0x1FC 9) clean).bankWord 7 15 = 9 := by decide +kernel
/-- R124: reset discards the command in flight, and its writes are never performed. -/
theorem test_reset_discards : (after (.resetLine true) busyState).statusWord = 0 := by decide +kernel
/-- R60, R61: the assembler line of spec/30_encoding.md for BLK with a snapshot. -/
theorem test_asm : asm (.blkSnap 2 0 4 20 3 true) = "BLK b2, b0, 20, snap b4@3, fin" := by decide +kernel
/-- Program P4: one PNB trial on S0, with candidates (4, 0) and (11, 0). -/
theorem test_pnb_trial :
    (match runCommands (pnbTrial 4 3 13 13 11 0 4 0) withS0 with
      | .next t => t.cmpr
      | .fault _ => 0
      | .refused _ => 0) = 0x15 ∧
    (match runCommands (pnbTrial 4 3 13 13 11 0 11 0) withS0 with
      | .next t => t.cmpr
      | .fault _ => 0
      | .refused _ => 0) = 0x0D := by decide +kernel
/-- The canonical differential and output bit, with `r` rounds. -/
def trialConfig (r : RoundNo) : TrialConfig := (canonicalConfig r 0 []).toTrialConfig

/-- What a call that ran returned; `none` where it was rejected or stopped. -/
def returned {α : Type} (r : HostResult (α × State)) : Option (α × State) :=
  match r with
  | .ran (.next p) => some p
  | .ran (.fault _) => none
  | .ran (.refused _) => none
  | .configurationError => none

/-- Program P3's first trial does not match; with no round, two states that differ in word 13 alone match at word 11. -/
theorem test_differential_trial :
    ((returned (runDifferentialTrial s0 (trialConfig 3) State.reset)).map fun p => (p.1, p.2.matchCnt, p.2.trialCnt)) =
        some (false, 0, 1) ∧
      ((returned (runDifferentialTrial s0 (trialConfig 0) State.reset)).map fun p => (p.1, p.2.matchCnt, p.2.trialCnt)) =
        some (true, 1, 1) := by decide +kernel
/-- S7: a batch of one match has the bias 1, and one of no match the bias -1 (the same two trials, after CLRC). -/
theorem test_estimate_bias :
    ((returned (estimateBias [s0] (trialConfig 0) (clean.setMatchCnt 7))).map Prod.fst) = some 1 ∧
      ((returned (estimateBias [s0] (trialConfig 3) (clean.setMatchCnt 7))).map Prod.fst) = some (-1) := by decide +kernel
/-- Program P4's trial as the host's call. -/
theorem test_pnb_call :
    ((returned (runPnbTrial s0 (canonicalConfig 4 3 []).toPnbConfig 4 0 State.reset)).map fun p => (p.1, p.2.cmpr)) =
      some (true, 0x15) := by decide +kernel

/-- R106: the canonical sweep of one state is accepted, at both bounds of K. -/
theorem test_config_accepted :
    hostAccepts (canonicalConfig 4 3 [s0]) = true ∧ hostAccepts (canonicalConfig 4 4 [s0]) = true ∧
      hostAccepts { canonicalConfig 4 3 [s0] with wordHi := 16, outputWord := 0, diffWord := 4 } = true := by decide +kernel
/-- R106: each listed error, at the nearest value, rejects a sweep. -/
theorem test_config_rejected :
    ([canonicalConfig 3 4 [s0], canonicalConfig 4 3 [],
      { canonicalConfig 4 3 [s0] with diffBit := 32 }, { canonicalConfig 4 3 [s0] with outputBit := 32 },
      { canonicalConfig 4 3 [s0] with bitHi := 33 }, { canonicalConfig 4 3 [s0] with diffWord := 16 },
      { canonicalConfig 4 3 [s0] with outputWord := 16 }, { canonicalConfig 4 3 [s0] with wordHi := 17 },
      { canonicalConfig 4 3 [s0] with diffWord := 3 }, { canonicalConfig 4 3 [s0] with wordLo := 3 }].map hostAccepts) =
    List.replicate 10 false := by decide +kernel
/-- R106: a call with a rejected configuration returns the error and makes no move. -/
theorem test_calls_rejected :
    (∀ s, sweep (canonicalConfig 3 4 [s0]) s = .configurationError) ∧
      (∀ s, estimateBias [] (trialConfig 3) s = .configurationError) ∧
      (∀ s, runPnbTrial s0 (canonicalConfig 4 3 []).toPnbConfig 3 0 s = .configurationError) ∧
      (∀ s, runDifferentialTrial s0 { trialConfig 3 with diffWord := 3 } s = .configurationError) :=
  ⟨fun _ => rfl, fun _ => rfl, fun _ => rfl, fun _ => rfl⟩
/-- R104: the threshold is on the size of the bias, so a candidate that never matches is reported. -/
theorem test_report :
    reportOf 4 1 canonicalThreshold 0 2 = some ⟨4, 1, 0, -1, 1⟩ ∧ reportOf 4 1 canonicalThreshold 1 2 = none := by
  decide +kernel
/-- S10: the linear index of the last candidate. -/
theorem test_linear_index : linearIndex 4 0 = 0 ∧ linearIndex 5 0 = 32 ∧ linearIndex 11 31 = 255 := by decide

/-! ## What the host asks -/

/-- The step after reset takes every row's word, none of them stopping. -/
theorem test_rows_run_after_reset :
    ([0x00000000, 0x08000000, 0x10000000, 0x18000000, 0x18000080, 0x20000000, 0x28000000, 0x30000000, 0x38000000,
      0x40000000, 0x48000000, 0x50000000, 0x58000000, 0x60000000, 0x68000000, 0x70000000].map fun w =>
        match step (State.reset.withFetchWord 32 w) with
        | .next t => t.response
        | .fault _ => .none
        | .refused _ => .none) = List.replicate 16 Response.done := by decide +kernel

/-! ## Witnesses: for each statement with hypotheses, a state and operands that meet all of them, clause by clause -/

/-- For StepRunsDecodedCommand. -/
theorem witness_decoded_command :
    ∃ (s : State) (v : Word) (rest : List Turn) (i : Instr),
      s.schedule = cmdWrite v :: rest ∧ s.inReset = false ∧ s.inFlight = none ∧ decode v = .ok i :=
  ⟨withS0.setSchedule [cmdWrite 0x49006B40], 0x49006B40, [], .xbit 1 0 13 13, rfl, rfl, rfl, by decide⟩

/-- For UndecodableWordOnlyRecordsItsError: each of the two errors of the decoder. -/
theorem witness_undecodable_command :
    ∀ c ∈ [ErrCode.opcode, ErrCode.rsvd], ∃ (s : State) (v : Word) (rest : List Turn),
      s.schedule = cmdWrite v :: rest ∧ s.inReset = false ∧ s.inFlight = none ∧ decode v = .error c := by
  intro c hc
  simp only [List.mem_cons, List.not_mem_nil, or_false] at hc
  rcases hc with rfl | rfl
  · exact ⟨clean.setSchedule [cmdWrite 0x78000000], 0x78000000, [], rfl, rfl, rfl, by decide⟩
  · exact ⟨clean.setSchedule [cmdWrite 0x70000001], 0x70000001, [], rfl, rfl, rfl, by decide⟩

/-- For EncodeOfDecode and RowAcceptedWordDecodes: the highest word of a row, and of each row its pattern. -/
theorem witness_accepted_words :
    decode 0x6FFFFFC0#32 = .ok (.cmp4 7 7 7 7 15 31) ∧ ∀ r ∈ opcodeTable, r.accepts r.pattern = true := by decide

/-- For ByteLanesAreLittleEndian: the top bit of the top lane. -/
theorem witness_top_lane : 3 < 4 ∧ 7 < 8 ∧ (byteLane 0x80000000#32 3).getLsbD 7 = true := by decide

/-- For RotationsAreCircular and RotationsAreInverse: both ends of the range. -/
theorem witness_rotations : (1 ≤ 1 ∧ 1 ≤ 31 ∧ 0 < 32) ∧ (1 ≤ 31 ∧ 31 ≤ 31 ∧ 31 < 32) := by decide

/-- For RoundGroupsInAnyOrder: an order of each parity that is not the rule's. -/
theorem witness_group_orders :
    [3, 1, 0, 2].Perm (if 0 % 2 = 0 then ([0, 1, 2, 3] : List GroupNo) else [4, 5, 6, 7]) ∧
      [7, 5, 4, 6].Perm (if 1 % 2 = 0 then ([0, 1, 2, 3] : List GroupNo) else [4, 5, 6, 7]) := by decide

/-- For PartialInversionGivesSnapshot and ExactGuessGivesSnapshot: equal and unequal bounds. -/
theorem witness_round_ranges : (0 ≤ 0 ∧ 0 ≤ 31) ∧ (3 ≤ 3 ∧ 3 ≤ 20) := by decide

/-- For the statements of a command's result on an idle core, with the operand bounds of each. -/
theorem witness_idle_core :
    withS0.inFlight = none ∧ (1#5 : BitNo) ≠ 0#5 ∧ (31#5 : BitNo) ≠ 0#5 ∧ (0#5 : RoundNo).toNat ≤ (0#5 : RoundNo).toNat ∧
      (3#5 : RoundNo).toNat ≤ (20#5 : RoundNo).toNat ∧ (2#3 : BankNo) ≠ 1#3 ∧
      withS0.inFlight = none ∧ withS0.counterFull = false := by decide +kernel

/-- For CopyAndConst: the lowest word that CONST copies. -/
theorem witness_const_copies_word_4 : 4 ≤ (4#4 : WordNo).toNat ∧ 4 ≤ (15#4 : WordNo).toNat := by decide

/-- For RotationCommandsRotateOneWord: another word than the rotated one. -/
theorem witness_other_word : (14#4 : WordNo) ≠ 15#4 := by decide

/-- For QrCommandRunsQuarterRound and IqrCommandRunsInverseQuarterRound: a word outside the group. -/
theorem witness_word_outside_group :
    (1 : Fin 16) ≠ (groupOf 0).a ∧ (1 : Fin 16) ≠ (groupOf 0).b ∧ (1 : Fin 16) ≠ (groupOf 0).c ∧
      (1 : Fin 16) ≠ (groupOf 0).d := by decide

/-- For RangeErrorsRejected: the nearest values out of range. -/
theorem witness_out_of_range : (2#5 : RoundNo).toNat < (3#5 : RoundNo).toNat ∧ (0#5 : RoundNo).toNat < (31#5 : RoundNo).toNat := by
  decide

/-- For Cmp2CountsAndRecords and Cmp4CountsAndRecords: the last value of both counters that takes a compare. -/
theorem witness_last_count :
    ((clean.setTrialCnt 0xFFFFFFFE).setMatchCnt 0xFFFFFFFE).inFlight = none ∧
      ((clean.setTrialCnt 0xFFFFFFFE).setMatchCnt 0xFFFFFFFE).counterFull = false := by decide +kernel

/-- For FullCounterRejectsCompares: each counter alone. -/
theorem witness_full_counters :
    (clean.setTrialCnt 0xFFFFFFFF).trialCnt = 0xFFFFFFFF#32 ∧ (clean.setMatchCnt 0xFFFFFFFF).matchCnt = 0xFFFFFFFF#32 := by
  decide +kernel

/-- For AcceptedOrRejected: an admissible command with its sources written, one with a source unwritten, and one that fails each
check. -/
theorem witness_admissible :
    (Admissible (.rotl 1 0 5 31) withS0 ∧ SourcesWritten (.rotl 1 0 5 31) withS0) ∧
      (Admissible (.copy 1 0) State.reset ∧ ¬ SourcesWritten (.copy 1 0) State.reset) ∧
      ¬ Admissible (.rotl 1 0 5 0) withS0 ∧ ¬ Admissible (.cmp2 0 1 0 0) (clean.setTrialCnt 0xFFFFFFFF) := by
  refine ⟨⟨⟨by decide, fun h => by cases h⟩, ?_⟩, ⟨⟨by decide, fun h => by cases h⟩, ?_⟩, ?_, ?_⟩
  · unfold SourcesWritten
    decide +kernel
  · intro h
    have := h 0
    revert this
    decide +kernel
  · intro h
    have := h.1
    revert this
    decide
  · intro h
    have := h.2 rfl
    revert this
    decide +kernel

/-- For CommandsWriteOnlyWhatTheyName: a command on an idle core, with a bank it names, a bank it does not, and no counter. -/
theorem witness_accepted_command :
    ∃ t, withS0.inFlight = none ∧ Admissible (.copy 7 0) withS0 ∧ exec (.copy 7 0) withS0 = .next t ∧
      7#3 ∈ destinations (.copy 7 0) ∧ 6#3 ∉ destinations (.copy 7 0) ∧ writesCounters (.copy 7 0) = false :=
  ⟨_, rfl, ⟨rfl, fun h => by cases h⟩, rfl, by decide, by decide, by decide⟩

/-- For CommandCommitsAfterItsRounds: a core with nothing scheduled, one with a move of
the sequencer scheduled, and a busy one with all its rounds left. -/
theorem witness_rounds_left :
    (State.reset.inFlight = none ∧ State.reset.schedule = [] ∧
      (busyState.setSchedule [.sequencer]).schedule = .sequencer :: []) ∧ busyState.inFlight = some busyJob ∧
      0 ≤ roundsLeft busyJob ∧ roundsLeft busyJob = 17 ∧ 17 ≤ roundsLeft busyJob := by
  refine ⟨⟨rfl, rfl, rfl⟩, rfl, by decide, by decide, by decide⟩

/-- A compare in flight: it has no round left. -/
def compareJobState : State := compareStart.accept (compareJob (.cmp2 2 3 11 0) 0xb 0xa 0 0)

/-- For EveryCommandCommits, StepKeepsInv and CountsStayOrdered: states with a command in flight meet the invariant. -/
theorem witness_invariant : CoreInv busyState ∧ CoreInv compareJobState ∧ CountsOk compareJobState := by
  refine ⟨⟨⟨by decide +kernel, by decide +kernel⟩, ⟨by decide +kernel, .inl (by decide +kernel)⟩, ?_, ?_⟩,
    ⟨⟨by decide +kernel, by decide +kernel⟩, ⟨by decide +kernel, .inl (by decide +kernel)⟩, ?_, ?_⟩, ?_⟩
  · intro f hf
    cases hf
    exact ⟨⟨rfl, fun h => by cases h⟩, by decide +kernel, rfl⟩
  · intro h
    cases h
  · intro f hf
    cases hf
    exact ⟨⟨rfl, fun _ => by decide +kernel⟩, rfl⟩
  · intro h
    cases h
  · unfold CountsOk
    decide +kernel

/-- For StepKeepsInv, CountsStayOrdered and OnlyComparesAndClrcWriteCmpr: the compare's commit is a step, its move is no counter
write, and it changes CMPR. -/
theorem witness_compare_commits :
    ∃ t, step compareJobState = .next t ∧ (∀ m ∈ compareJobState.schedule.head?, writesCounterReg m = false) ∧
      t.cmpr ≠ compareJobState.cmpr :=
  ⟨_, rfl, (fun m hm => by cases hm), by decide +kernel⟩

/-- For CountsStayOrdered: a host write that is allowed as the next move, and the two that are not. -/
theorem witness_counter_writes :
    writesCounterReg (memWrite 0x204 2) = false ∧ writesCounterReg (memWrite 0x208 0) = true ∧
      writesCounterReg (memWrite 0x20C 0) = true := by decide

/-- For BanksChangeOnlyByCommitOrHostWrite: a commit and a host write that change a bank. -/
theorem witness_bank_changes :
    (∃ t, step ((withS0.accept (oneSource (.copy 1 0) s0)).setSchedule [.sequencer]) = .next t ∧
      t.bank 1 ≠ (withS0.accept (oneSource (.copy 1 0) s0)).bank 1) ∧
    (∃ t, step (withS0.setSchedule [memWrite (bankOffset 7 15) 1]) = .next t ∧ t.bank 7 ≠ withS0.bank 7) :=
  ⟨⟨_, rfl, by decide +kernel⟩, ⟨_, rfl, by decide +kernel⟩⟩

/-- For BusyAccessDisturbsNothing, BusyWrites and BusyReads: a busy core, and an offset of every kind of register. -/
theorem witness_busy_access :
    (busyState.setSchedule [memRead 0x000]).schedule = .access ⟨.read, .w32, 0x000⟩ :: [] ∧ busyState.inReset = false ∧
      busyState.busy = true ∧
      ([0x000, 0x1FC, 0x200, 0x204, 0x208, 0x20C, 0x210, 0x214, 0x22C, 0x3FC] : List (BitVec 10)).all
        (fun off => decide (off.toNat % 4 = 0)) = true ∧
      ([0x000, 0x1FC, 0x200, 0x204, 0x208, 0x20C, 0x210, 0x214, 0x22C, 0x3FC] : List (BitVec 10)).map regOf =
        [.bank 0 0, .bank 7 15, .cmd, .status, .matchCnt, .trialCnt, .cmpr, .id, .const 3, .reserved] := by
  refine ⟨rfl, rfl, rfl, by decide, by decide⟩

/-- For StatusReadBeforeAndAfterCommit: a command in flight with no round left. -/
theorem witness_about_to_commit :
    compareJobState.inFlight = some (compareJob (.cmp2 2 3 11 0) 0xb 0xa 0 0) ∧
      roundsLeft (compareJob (.cmp2 2 3 11 0) 0xb 0xa 0 0) = 0 ∧ compareJobState.inReset = false :=
  ⟨rfl, rfl, rfl⟩

/-- For WindowAndRegisterMap: the first address above the window, and the ends of the reserved offsets. -/
theorem witness_window :
    Config.base + 0x400 ≤ Config.base + 0x400 ∧ 0x230 ≤ (0x230#10).toNat ∧ 0x230 ≤ (0x3FF#10).toNat :=
  ⟨le_refl _, by decide, by decide⟩

/-- For ConstantRegistersRead: the first and the last of the list. -/
theorem witness_constant_registers :
    clean.inReset = false ∧
      ((0x214, 0x43433230) : BitVec 10 × Word) ∈ ([(0x214, 0x43433230), (0x220, 0x61707865), (0x224, 0x3320646e),
        (0x228, 0x79622d32), (0x22C, 0x6b206574)] : List (BitVec 10 × Word)) ∧
      ((0x22C, 0x6b206574) : BitVec 10 × Word) ∈ ([(0x214, 0x43433230), (0x220, 0x61707865), (0x224, 0x3320646e),
        (0x228, 0x79622d32), (0x22C, 0x6b206574)] : List (BitVec 10 × Word)) := by
  refine ⟨rfl, by decide, by decide⟩

/-- For ReservedAndReadOnly: each of its offsets, with the ends of the reserved ones. -/
theorem witness_reserved :
    regOf 0x218 = .reserved ∧ regOf 0x21C = .reserved ∧ regOf 0x230 = .reserved ∧ regOf 0x3FC = .reserved ∧
      regOf 0x200 = .cmd ∧ regOf 0x210 = .cmpr ∧ regOf 0x214 = .id ∧ (∃ k, regOf 0x22C = .const k) ∧
      (0x3FC#10).toNat % 4 = 0 := by
  refine ⟨by decide, by decide, by decide, by decide, by decide, by decide, by decide, ⟨3, by decide⟩, by decide⟩

/-- For BankWordReadsBack, CountersReadAndWrite and the other statements of a served access: reset released, no command in flight,
and a bank word that is not the one written. -/
theorem witness_served_access :
    clean.inReset = false ∧ clean.inFlight = none ∧ ¬ ((7#3 : BankNo) = 7#3 ∧ (14#4 : WordNo) = 15#4) := by
  refine ⟨rfl, rfl, by decide⟩

/-- For MalformedAccessIsBusError: a width that is not 32 bits, and an offset one short of aligned. -/
theorem witness_malformed_access :
    (⟨.read, .w8, 0x214⟩ : Access).width ≠ .w32 ∧ (⟨.read, .w32, 0x3FF⟩ : Access).off.toNat % 4 ≠ 0 := by decide

/-- For FirstErrorIsKept: a state without an error and one with. -/
theorem witness_errors : clean.err = false ∧ (clean.recordError .bus).err = true := by decide +kernel

/-- For StatusWriteClearsErrors: bit 1 set, and every other bit set. -/
theorem witness_status_writes : (0x00000002#32).getLsbD 1 = true ∧ (0xFFFFFFFD#32).getLsbD 1 = false := by decide

/-- For ResetInput: asserting it, releasing it while it is asserted, and an access while it is asserted. -/
theorem witness_reset_input : (true = true ∨ clean.inReset = true) ∧ (after (.resetLine true) busyState).inReset = true :=
  ⟨.inl rfl, rfl⟩

/-- For StrictStepFaultsOnUnwrittenWords: a command and a host read, each on unwritten and on written words. -/
theorem witness_unwritten :
    (State.reset.inReset = false ∧ State.reset.inFlight = none ∧ State.reset.readUnwritten = false) ∧
    (clean.inReset = false ∧ clean.inFlight = none ∧ clean.readUnwritten = false) ∧
    ((State.reset.setSchedule [cmdWrite 0x39000000]).schedule = cmdWrite 0x39000000 :: [] ∧
      decode 0x39000000 = .ok (.copy 1 0)) ∧
    ((State.reset.writtenMask 7).getLsbD 15 = false ∧ (clean.writtenMask 7).getLsbD 15 = true) := by
  refine ⟨⟨rfl, rfl, rfl⟩, ⟨rfl, rfl, rfl⟩, ⟨rfl, by decide⟩, by decide +kernel, by decide +kernel⟩

/-- For PnbTrialComparesTheFourStates and PnbTrialWithoutInversionMatches: an idle core, K = R and K < R, an output word that is not the
candidate's, and one that is with its bit equal to the candidate's. -/
theorem witness_trial :
    withS0.inFlight = none ∧ withS0.counterFull = false ∧ (3#5 : RoundNo).toNat ≤ (4#5 : RoundNo).toNat ∧
      (11#4 : WordNo) ≠ 4#4 ∧ ((11#4 : WordNo) = 11#4 ∧ (31#5 : BitNo).toNat ≤ (31#5 : BitNo).toNat) := by decide +kernel

/-- For BiasRange: no match and every match. -/
theorem witness_bias : 1 ≤ 1 ∧ 0 ≤ 1 ∧ bias 0 1 = -1 ∧ bias 1 1 = 1 := by
  refine ⟨by decide, by decide, ?_, ?_⟩ <;> norm_num [bias, matchProbability]

end Sys2Proof.Tests
end

/-! PROOFS. What `exec` does with every command, said once: the sources it reads, what the sequencer then holds, and that a
command is accepted exactly when it is admissible (spec/30_encoding.md R47, R49). -/

section
namespace Sys2Proof.Machine

open Sys2Proof.Safety

/-- The bank words a command reads at acceptance, in the order it reads them (R47). -/
def sources : Instr → List (BankNo × BitVec 16)
  | .nop => []
  | .qr _ a _ => [(a, allWords)]
  | .iqr _ a _ => [(a, allWords)]
  | .blk _ a _ _ => [(a, allWords)]
  | .blkSnap _ a _ _ _ _ => [(a, allWords)]
  | .invp _ a _ _ => [(a, allWords)]
  | .add _ a b => [(a, allWords), (b, allWords)]
  | .sub _ a b => [(a, allWords), (b, allWords)]
  | .copy _ a => [(a, allWords)]
  | .const _ a => [(a, upperMask)]
  | .xbit _ a _ _ => [(a, allWords)]
  | .rotl _ a _ _ => [(a, allWords)]
  | .rotr _ a _ _ => [(a, allWords)]
  | .cmp2 k0 k1 w _ => [(k0, wordMask w), (k1, wordMask w)]
  | .cmp4 k0 k1 k2 k3 w _ => [(k0, wordMask w), (k1, wordMask w), (k2, wordMask w), (k3, wordMask w)]
  | .clrc => []

/-- What the sequencer holds when the command has been accepted in `s` (R19, R47). -/
def jobOf (i : Instr) (s : State) : InFlight :=
  match i with
  | .nop => noSource i
  | .qr _ a _ => oneSource i (s.bank a)
  | .iqr _ a _ => oneSource i (s.bank a)
  | .blk _ a _ _ => roundJob i (s.bank a) 0
  | .blkSnap _ a _ _ k _ => snapJob i (s.bank a) k
  | .invp _ a hi _ => roundJob i (s.bank a) hi.toNat
  | .add _ a b => twoSources i (s.bank a) (s.bank b)
  | .sub _ a b => twoSources i (s.bank a) (s.bank b)
  | .copy _ a => oneSource i (s.bank a)
  | .const _ a => oneSource i (upperWords (s.bank a))
  | .xbit _ a _ _ => oneSource i (s.bank a)
  | .rotl _ a _ _ => oneSource i (s.bank a)
  | .rotr _ a _ _ => oneSource i (s.bank a)
  | .cmp2 k0 k1 w _ => compareJob i (s.bankWord k0 w) (s.bankWord k1 w) 0#32 0#32
  | .cmp4 k0 k1 k2 k3 w _ =>
    compareJob i (s.bankWord k0 w) (s.bankWord k1 w) (s.bankWord k2 w) (s.bankWord k3 w)
  | .clrc => noSource i

@[simp] theorem jobOf_cmd (i : Instr) (s : State) : (jobOf i s).cmd = i := by
  cases i <;> rfl

/-- Reads of words of several banks, in turn. -/
def State.noteReads (s : State) (l : List (BankNo × BitVec 16)) : State := l.foldl (fun u p => u.noteRead p.1 p.2) s

/-- Reading sources changes the record of unwritten words alone. -/
theorem State.noteReads_eq (s : State) (l : List (BankNo × BitVec 16)) :
    s.noteReads l = { s with readUnwritten := (s.noteReads l).readUnwritten } := by
  induction l generalizing s with
  | nil => rfl
  | cons p l ih => exact ih (s.noteRead p.1 p.2)

theorem State.noteReads_readUnwritten_iff (s : State) (l : List (BankNo × BitVec 16)) :
    (s.noteReads l).readUnwritten = true ↔
      s.readUnwritten = true ∨ ¬ ∀ p ∈ l, p.2 &&& ~~~(s.writtenMask p.1) = 0#16 := by
  induction l generalizing s with
  | nil => simp [State.noteReads]
  | cons p l ih =>
    have htail := ih (s.noteRead p.1 p.2)
    simp only [State.noteRead_readUnwritten_iff, State.noteRead_writtenMask] at htail
    rw [List.forall_mem_cons, not_and_or, ← or_assoc]
    exact htail

/-- Of a mask that stands at one bank alone, only that bank's words matter. -/
theorem forall_maskAt_and_eq_zero_iff (m : BitVec 16) (a : BankNo) (p : BankNo → BitVec 16) :
    (∀ b, (if b = a then m else 0#16) &&& p b = 0#16) ↔ m &&& p a = 0#16 := by
  constructor
  · intro h
    simpa using h a
  · intro h b
    split
    · next e => rw [e, h]
    · simp

theorem sourcesWritten_iff (i : Instr) (s : State) :
    SourcesWritten i s ↔ ∀ p ∈ sources i, p.2 &&& ~~~(s.writtenMask p.1) = 0#16 := by
  unfold SourcesWritten
  cases i <;>
    simp [sources, sourceMask, BitVec.and_or_distrib_right, BitVec.or_eq_zero_iff, forall_and,
      forall_maskAt_and_eq_zero_iff, and_assoc]

/-- R47: an admissible command reads its sources and is accepted. -/
theorem exec_of_admissible {i : Instr} {s : State} (h : Admissible i s) :
    exec i s = .next ((s.noteReads (sources i)).accept (jobOf i s)) := by
  obtain ⟨hrange, hcount⟩ := h
  unfold Instr.WellFormed at hrange
  cases i
  case blkSnap => exact if_neg (by simpa [Instr.inRange] using hrange)
  case invp => exact if_neg (by simpa [Instr.inRange] using hrange)
  case rotl => exact if_neg (by rintro rfl; simp [Instr.inRange] at hrange)
  case rotr => exact if_neg (by rintro rfl; simp [Instr.inRange] at hrange)
  case cmp2 => exact if_neg (by simp [hcount rfl])
  case cmp4 => exact if_neg (by simp [hcount rfl])
  all_goals rfl

/-- Check 3 of R49. -/
theorem exec_of_out_of_range {i : Instr} (s : State) (h : i.inRange = false) :
    exec i s = .next (s.recordError .range) := by
  cases i
  case blkSnap => exact if_pos (by simpa [Instr.inRange] using h)
  case invp => exact if_pos (by simpa [Instr.inRange] using h)
  case rotl => exact if_pos (BitVec.eq_of_toNat_eq (by simpa [Instr.inRange] using h))
  case rotr => exact if_pos (BitVec.eq_of_toNat_eq (by simpa [Instr.inRange] using h))
  all_goals cases h

/-- Check 4 of R49 (R87). -/
theorem exec_of_counterFull {i : Instr} {s : State} (hi : isCompare i = true) (hs : s.counterFull = true) :
    exec i s = .next (s.recordError .cnt) := by
  cases i
  case cmp2 => exact if_pos hs
  case cmp4 => exact if_pos hs
  all_goals cases hi

/-- R49, R110: a command that is not admissible is rejected, and only its error is recorded. -/
theorem exec_of_not_admissible {i : Instr} {s : State} (h : ¬ Admissible i s) :
    exec i s = .next (s.recordError (if i.inRange then .cnt else .range)) := by
  cases hrange : i.inRange with
  | false => exact exec_of_out_of_range s hrange
  | true =>
    have hfull : isCompare i = true ∧ s.counterFull = true := by
      simpa [Admissible, Instr.WellFormed, hrange] using h
    exact exec_of_counterFull hfull.1 hfull.2

end Sys2Proof.Machine
end

/-! PROOFS. The invariant `CoreInv` (O52, O53): the buffers of the command in flight round by round, CMPR at a commit, and each
operation on the state; then every kind of step. -/

section
namespace Sys2Proof.Safety

open Sys2Proof.Machine

/-! The command in flight, round by round. -/

theorem forward_zero_succ (v : Block) (n : Nat) : forward v 0 (n + 1) = fwdRound (forward v 0 n) n := by
  simpa [forward] using forwardN_succ v 0 n

theorem inverse_self (v : Block) (n : Nat) : inverse v n n = v := by
  simp [inverse, inverseN]

theorem inverse_pred {n hi : Nat} (v : Block) (h1 : 1 ≤ n) (h2 : n ≤ hi) :
    inverse v (n - 1) hi = invRound (inverse v n hi) (n - 1) := by
  have h := inverseN_succ v (n - 1) (hi - n)
  rw [show hi - n + 1 = hi - (n - 1) by omega, show n - 1 + 1 = n by omega] at h
  exact h

/-- The buffers fit a command that has just been accepted. -/
theorem jobOk_jobOf {i : Instr} (s : State) (h : i.WellFormed) : JobOk (jobOf i s) := by
  cases i
  case blk => exact ⟨Nat.zero_le _, rfl⟩
  case blkSnap d a p r k fin =>
    refine ⟨Nat.zero_le _, rfl, fun hk => ?_⟩
    have hk0 : k = 0#5 := BitVec.eq_of_toNat_eq (Nat.le_zero.mp hk)
    subst hk0
    rfl
  case invp => exact ⟨of_decide_eq_true h, le_refl _, (inverse_self _ _).symm⟩
  all_goals rfl

/-- A round that was left keeps the buffers in step with the round index. -/
theorem JobOk.roundStep {f : InFlight} (h : JobOk f) (hleft : roundsLeft f ≠ 0) : JobOk (roundStep f) := by
  obtain ⟨cmd, srcA, srcB, srcK, work, round, snap⟩ := f
  cases cmd
  case blk =>
    obtain ⟨hround, hwork⟩ := h
    simp only [roundsLeft] at hleft hround hwork
    exact ⟨by simp only [Machine.roundStep, roundBlk]; omega, by
      simp only [Machine.roundStep, roundBlk, hwork, forward_zero_succ]⟩
  case blkSnap d a p r k fin =>
    obtain ⟨hround, hwork, hsnap⟩ := h
    simp only [roundsLeft] at hleft hround hwork hsnap
    refine ⟨by simp only [Machine.roundStep, roundBlkSnap]; omega, by
      simp only [Machine.roundStep, roundBlkSnap, hwork, forward_zero_succ], fun hk => ?_⟩
    simp only [Machine.roundStep, roundBlkSnap] at hk ⊢
    split
    · next e => rw [← e, forward_zero_succ, hwork]
    · exact hsnap (by omega)
  case invp =>
    obtain ⟨hlo, hhi, hwork⟩ := h
    simp only [roundsLeft] at hleft hlo hhi hwork
    exact ⟨by simp only [Machine.roundStep, roundInvp]; omega, by simp only [Machine.roundStep, roundInvp]; omega, by
      simp only [Machine.roundStep, roundInvp, hwork, inverse_pred srcA (by omega) hhi]⟩
  all_goals exact h

/-! CMPR and the counters at a commit. -/

theorem verdict2_eq_verdict4 (a b : Bool) : verdict2 a b = verdict4 a b false false := by
  cases a <;> cases b <;> rfl

/-- What a commit does to the counters and CMPR: nothing, a compare's count, or the clearing of CLRC (R25, R88 to R90). -/
theorem commitWrites_counters_cases (f : InFlight) (s : State) :
    writesCounters f.cmd = false ∨
    (isCompare f.cmd = true ∧ ∃ a b c d, commitWrites f s = s.countCompare (verdict4 a b c d) a b c d) ∨
    commitWrites f s = commitClrc s := by
  obtain ⟨cmd, srcA, srcB, srcK, work, round, snap⟩ := f
  cases cmd
  case cmp2 k0 k1 w n =>
    refine .inr (.inl ⟨rfl, bitOf srcK[0] n, bitOf srcK[1] n, false, false, ?_⟩)
    rw [← verdict2_eq_verdict4]
    rfl
  case cmp4 k0 k1 k2 k3 w n =>
    exact .inr (.inl ⟨rfl, bitOf srcK[0] n, bitOf srcK[1] n, bitOf srcK[2] n, bitOf srcK[3] n, rfl⟩)
  case clrc => exact .inr (.inr rfl)
  all_goals exact .inl rfl

/-- R25: CMPR as a compare leaves it is legal. -/
theorem cmprOk_countCompare (s : State) (a b c d : Bool) : CmprOk (s.countCompare (verdict4 a b c d) a b c d) := by
  unfold CmprOk
  rw [State.countCompare_cmpr]
  revert a b c d
  decide

theorem CmprOk.commitWrites {s : State} (h : CmprOk s) (f : InFlight) : CmprOk (commitWrites f s) := by
  obtain hno | ⟨-, a, b, c, d, hcmp⟩ | hclr := commitWrites_counters_cases f s
  · obtain ⟨-, -, hcounters, -⟩ := commitWrites_frame f s
    unfold CmprOk
    rw [(hcounters hno).2.2]
    exact h
  · rw [hcmp]
    exact cmprOk_countCompare s a b c d
  · rw [hclr]
    exact ⟨by simp [commitClrc], .inl rfl⟩

/-! The operations on the state. Where an operation leaves the fields of a clause alone, the clause of the state before is the
clause of the state after. -/

section Operations

variable {s : State} (h : CoreInv s)
include h

theorem CoreInv.setSchedule (l : List Turn) : CoreInv (s.setSchedule l) := ⟨h.status, h.cmpr, h.inFlight, h.reset⟩

theorem CoreInv.respond (r : Response) : CoreInv (s.respond r) := ⟨h.status, h.cmpr, h.inFlight, h.reset⟩

theorem CoreInv.draw : CoreInv s.draw := ⟨h.status, h.cmpr, h.inFlight, h.reset⟩

theorem CoreInv.noteRead (b : BankNo) (m : BitVec 16) : CoreInv (s.noteRead b m) :=
  ⟨h.status, h.cmpr, h.inFlight, h.reset⟩

theorem CoreInv.noteReads (l : List (BankNo × BitVec 16)) : CoreInv (s.noteReads l) := by
  rw [State.noteReads_eq]
  exact ⟨h.status, h.cmpr, h.inFlight, h.reset⟩

theorem CoreInv.writeWord (b : BankNo) (w : WordNo) (x : Word) : CoreInv (s.writeWord b w x) :=
  ⟨h.status, h.cmpr, h.inFlight, h.reset⟩

theorem CoreInv.clearError : CoreInv s.clearError := by
  refine ⟨⟨by simp, by simp⟩, h.cmpr, h.inFlight, fun hr => ?_⟩
  obtain ⟨hidle, -, -, hcounts⟩ := h.reset hr
  exact ⟨hidle, rfl, rfl, hcounts⟩

theorem CoreInv.recordError (hr : s.inReset = false) (c : ErrCode) : CoreInv (s.recordError c) := by
  obtain ⟨hle, hiff⟩ := h.status
  refine ⟨?_, h.cmpr, h.inFlight, fun hr' => absurd hr' (by simp [hr])⟩
  cases herr : s.err with
  | true => exact ⟨by simpa [herr] using hle, by simpa [herr] using hiff⟩
  | false => cases c <;> simp [StatusOk, herr, errCodeBits]

/-- A counter set while no command is in flight wraps under no compare. -/
theorem CoreInv.setMatchCnt (hr : s.inReset = false) (hidle : s.inFlight = none) (v : Word) :
    CoreInv (s.setMatchCnt v) :=
  ⟨h.status, h.cmpr, fun f hf => absurd hf (by simp [hidle]), fun hr' => absurd hr' (by simp [hr])⟩

theorem CoreInv.setTrialCnt (hr : s.inReset = false) (hidle : s.inFlight = none) (v : Word) :
    CoreInv (s.setTrialCnt v) :=
  ⟨h.status, h.cmpr, fun f hf => absurd hf (by simp [hidle]), fun hr' => absurd hr' (by simp [hr])⟩

theorem CoreInv.setInFlight (hr : s.inReset = false) {f : InFlight} (hadm : Admissible f.cmd s) (hjob : JobOk f) :
    CoreInv (s.setInFlight (some f)) := by
  refine ⟨h.status, h.cmpr, fun g hg => ?_, fun hr' => absurd hr' (by simp [hr])⟩
  obtain rfl : f = g := Option.some.inj hg
  exact ⟨hadm, hjob⟩

/-- While a command is in flight, reset is not asserted. -/
theorem CoreInv.inReset_of_inFlight {f : InFlight} (hf : s.inFlight = some f) : s.inReset = false := by
  cases hr : s.inReset with
  | false => rfl
  | true => simp [(h.reset hr).1] at hf

/-! The moves. -/

theorem CoreInv.driveReset (asserted : Bool) : CoreInv (s.driveReset asserted) := by
  unfold State.driveReset
  split
  · exact ⟨⟨by simp, by simp⟩, ⟨by simp, .inl rfl⟩, (fun f hf => by simp at hf),
      fun _ => ⟨rfl, rfl, rfl, rfl, rfl, rfl⟩⟩
  · exact h

theorem CoreInv.commit {f : InFlight} (hf : s.inFlight = some f) : CoreInv (commit f s) := by
  obtain ⟨-, -, -, herr, hcode, ⟨-, -, hreset, -⟩, -⟩ := commitWrites_frame f s
  have hr : (commitWrites f s).inReset = false := hreset.trans (h.inReset_of_inFlight hf)
  refine ⟨?_, h.cmpr.commitWrites f, (fun g hg => by cases hg), fun hr' => absurd hr' (by simp [Machine.commit, hr])⟩
  simpa [StatusOk, Machine.commit, herr, hcode] using h.status

theorem CoreInv.sequencerTurn : CoreInv (sequencerTurn s) := by
  obtain ⟨-, e⟩ | ⟨f, hf, hleft, e⟩ | ⟨f, hf, -, e⟩ := sequencerTurn_cases s <;> rw [e]
  · exact h
  · obtain ⟨hadm, hjob⟩ := h.inFlight f hf
    exact h.setInFlight (h.inReset_of_inFlight hf) (by simpa using hadm) (hjob.roundStep hleft)
  · exact h.commit hf

theorem CoreInv.answerIdle (v : Word) : CoreInv (s.answerIdle v) := by
  unfold State.answerIdle
  split
  · exact (h.respond _).draw
  · exact h.respond _

theorem CoreInv.noteHostRead (b : BankNo) (w : WordNo) : CoreInv (s.noteHostRead b w) := by
  unfold State.noteHostRead
  split
  · exact h
  · exact h.noteRead b _

theorem CoreInv.readReg (r : Reg) : CoreInv (readReg r s) := by
  cases r
  case bank b w => exact (h.noteHostRead b w).answerIdle _
  case matchCnt => exact h.answerIdle _
  case trialCnt => exact h.answerIdle _
  case cmpr => exact h.answerIdle _
  all_goals exact h.respond _

theorem CoreInv.unlessBusy (hr : s.inReset = false) {t : State} (ht : s.inFlight = none → CoreInv t) :
    CoreInv (unlessBusy s t) := by
  unfold Machine.unlessBusy
  split
  · exact h.recordError hr _
  · next hb => exact ht (s.busy_eq_false_iff.mp (by simpa using hb))

theorem CoreInv.exec (hr : s.inReset = false) {i : Instr} {t : State} (ht : exec i s = .next t) : CoreInv t := by
  by_cases hadm : Admissible i s
  · obtain rfl := Host.Outcome.next.inj ((exec_of_admissible hadm).symm.trans ht)
    have hnoted := h.noteReads (sources i)
    rw [State.noteReads_eq] at hnoted ⊢
    exact hnoted.setInFlight hr (by rw [jobOf_cmd]; exact hadm) (jobOk_jobOf s hadm.1)
  · obtain rfl := Host.Outcome.next.inj ((exec_of_not_admissible hadm).symm.trans ht)
    exact h.recordError hr _

theorem CoreInv.present (hr : s.inReset = false) {v : Word} {t : State} (ht : present v s = .next t) : CoreInv t := by
  unfold Machine.present at ht
  split at ht
  · cases ht
    exact h.recordError hr _
  · split at ht
    · cases ht
      exact h.recordError hr _
    · exact h.exec hr ht

theorem CoreInv.writeReg (hr : s.inReset = false) {r : Reg} {v : Word} {t : State} (ht : writeReg r v s = .next t) :
    CoreInv t := by
  cases r <;> simp only [Machine.writeReg, Host.Outcome.next.injEq] at ht
  case cmd => exact h.present hr ht
  all_goals subst ht
  case bank => exact h.unlessBusy hr fun _ => h.writeWord _ _ _
  case matchCnt => exact h.unlessBusy hr fun hidle => h.setMatchCnt hr hidle v
  case trialCnt => exact h.unlessBusy hr fun hidle => h.setTrialCnt hr hidle v
  case status =>
    split
    · exact h.clearError
    · exact h
  all_goals exact h

theorem CoreInv.busAccess (hr : s.inReset = false) {a : Access} {t : State} (ht : busAccess a s = .next t) :
    CoreInv t := by
  unfold Machine.busAccess at ht
  split at ht
  · split at ht
    · cases ht
      exact h.readReg _
    · exact (h.respond .done).writeReg hr ht
  · cases ht
    exact (h.recordError hr _).respond _

theorem CoreInv.step {t : State} (ht : step s = .next t) : CoreInv t := by
  obtain ⟨a, rest, -, rfl⟩ | ⟨l, -, rfl⟩ | ⟨a, rest, -, hr, hacc⟩ := step_cases ht
  · exact (h.setSchedule rest).driveReset a
  · exact (h.setSchedule l).sequencerTurn
  · exact (h.setSchedule rest).busAccess hr hacc

end Operations

/-- Settles O53: one lemma for each operation a step is made of. -/
theorem stepKeepsInv : Obligations.StepKeepsInv := fun _ _ h ht => h.step ht

/-- Settles O52: no error, CMPR 0, no command in flight, and reset not asserted. -/
theorem invAtReset : Obligations.InvAtReset where
  status := ⟨by decide, by simp [State.reset]⟩
  cmpr := ⟨by decide, .inl rfl⟩
  inFlight := fun f hf => by cases hf
  reset := fun hr => by cases hr

end Sys2Proof.Safety
end

/-! PROOFS. What changes the counters, CMPR and the banks: over a command that has settled (O33), and over a step of the whole
machine (O54 to O56). -/

section
namespace Sys2Proof.Safety

open Sys2Proof.Machine

/-! A command that has settled. -/

/-- Accepting a command, and settling it, is its commit in the state that read its sources. -/
theorem settle_exec {i : Instr} {s t : State} (hadm : Admissible i s) (ht : exec i s = .next t) :
    settle t = commit (roundSteps (roundsLeft (jobOf i s)) (jobOf i s)) (s.noteReads (sources i)) := by
  obtain rfl := Host.Outcome.next.inj ((exec_of_admissible hadm).symm.trans ht)
  rw [settle_accept, State.accept, commit_setInFlight]

/-- Settles O33: the frame of the commit, in a state that differs from the one before the command in `readUnwritten` alone. -/
theorem commandsWriteOnlyWhatTheyName : Obligations.CommandsWriteOnlyWhatTheyName := by
  intro i s t _ hadm ht
  have hread : t.readUnwritten = (s.noteReads (sources i)).readUnwritten := by
    obtain rfl := Host.Outcome.next.inj ((exec_of_admissible hadm).symm.trans ht)
    rfl
  have hframe := commitWrites_frame (roundSteps (roundsLeft (jobOf i s)) (jobOf i s)) (s.noteReads (sources i))
  rw [roundSteps_cmd, jobOf_cmd] at hframe
  rw [settle_exec hadm ht, hread]
  rw [State.noteReads_eq] at hframe ⊢
  exact hframe

/-! A move of the sequencer. -/

/-- A move of the sequencer writes no bank, counter or CMPR, or it is the commit. -/
theorem sequencerTurn_sameCore_or_commit (s : State) :
    SameCore s (sequencerTurn s) ∨ ∃ f, s.inFlight = some f ∧ sequencerTurn s = commit f s := by
  obtain ⟨-, e⟩ | ⟨f, -, -, e⟩ | ⟨f, hf, -, e⟩ := sequencerTurn_cases s
  · rw [e]
    exact .inl ⟨rfl, rfl, rfl, rfl, rfl⟩
  · rw [e]
    exact .inl ⟨rfl, rfl, rfl, rfl, rfl⟩
  · exact .inr ⟨f, hf, e⟩

/-! The order of the counters. -/

theorem counterFull_eq_false_iff (s : State) :
    s.counterFull = false ↔ s.trialCnt ≠ 0xFFFFFFFF#32 ∧ s.matchCnt ≠ 0xFFFFFFFF#32 := by
  simp [State.counterFull]

/-- A counter below its end does not wrap. -/
theorem toNat_add_countOf {x : Word} (h : x ≠ 0xFFFFFFFF#32) (m : Bool) : (x + countOf m).toNat = x.toNat + m.toNat := by
  have hx : x.toNat ≠ 0xFFFFFFFF := fun e => h (BitVec.eq_of_toNat_eq e)
  have hlt : x.toNat < 2 ^ 32 := x.isLt
  have hle : m.toNat ≤ 1 := m.toNat_le
  have hm : (countOf m).toNat = m.toNat := by cases m <;> rfl
  rw [BitVec.toNat_add_of_lt (by omega), hm]

theorem CountsOk.countCompare {s : State} (h : CountsOk s) (hfull : s.counterFull = false) (m a b c d : Bool) :
    CountsOk (s.countCompare m a b c d) := by
  obtain ⟨htrial, hmatch⟩ := (counterFull_eq_false_iff s).mp hfull
  have hm := toNat_add_countOf hmatch m
  have ht : (s.trialCnt + 1#32).toNat = s.trialCnt.toNat + 1 := toNat_add_countOf htrial true
  have hle : m.toNat ≤ 1 := m.toNat_le
  simp only [CountsOk, State.countCompare_matchCnt, State.countCompare_trialCnt] at h ⊢
  omega

theorem CountsOk.commitWrites {s : State} (h : CountsOk s) {f : InFlight} (hadm : Admissible f.cmd s) :
    CountsOk (commitWrites f s) := by
  obtain hno | ⟨hcmp, a, b, c, d, e⟩ | e := commitWrites_counters_cases f s
  · obtain ⟨-, -, hcounters, -⟩ := commitWrites_frame f s
    obtain ⟨hmatch, htrial, -⟩ := hcounters hno
    rwa [CountsOk, hmatch, htrial]
  · rw [e]
    exact h.countCompare (hadm.2 hcmp) _ a b c d
  · rw [e]
    exact Nat.le_refl 0

theorem CountsOk.driveReset {s : State} (h : CountsOk s) (asserted : Bool) : CountsOk (s.driveReset asserted) := by
  unfold State.driveReset
  split
  · exact Nat.le_refl 0
  · exact h

theorem CountsOk.sequencerTurn {s : State} (h : CountsOk s) (hinv : CoreInv s) : CountsOk (sequencerTurn s) := by
  obtain ⟨-, -, hmatch, htrial, -⟩ | ⟨f, hf, e⟩ := sequencerTurn_sameCore_or_commit s
  · rwa [CountsOk, hmatch, htrial]
  · rw [e]
    exact h.commitWrites (hinv.inFlight f hf).1

/-- Settles O54: a compare in flight passed R87, so its commit wraps no counter. -/
theorem countsStayOrdered : Obligations.CountsStayOrdered := by
  intro s t hinv hcounts hmove ht
  obtain ⟨a, rest, -, rfl⟩ | ⟨l, -, rfl⟩ | ⟨a, rest, hsched, -, hacc⟩ := step_cases ht
  · exact CountsOk.driveReset (s := s.setSchedule rest) hcounts a
  · exact CountsOk.sequencerTurn (s := s.setSchedule l) hcounts (hinv.setSchedule l)
  · obtain ⟨t', ht', -, -, -, hframe, -⟩ := busAccess_frame a (s.setSchedule rest)
    obtain rfl := Host.Outcome.next.inj (ht'.symm.trans hacc)
    obtain ⟨hmatch, htrial⟩ := hframe (hmove _ (by simp [hsched]))
    rwa [CountsOk, hmatch, htrial]

/-! What changes CMPR and the banks. -/

/-- Settles O55: no access writes CMPR, and a commit that does is that of a command that writes the counters. -/
theorem onlyComparesAndClrcWriteCmpr : Obligations.OnlyComparesAndClrcWriteCmpr := by
  intro s t ht hne
  obtain ⟨a, rest, hsched, -⟩ | ⟨l, -, rfl⟩ | ⟨a, rest, -, -, hacc⟩ := step_cases ht
  · exact .inl ⟨a, by simp [hsched]⟩
  · obtain ⟨-, -, -, -, hsame⟩ | ⟨f, hf, e⟩ := sequencerTurn_sameCore_or_commit (s.setSchedule l)
    · exact absurd hsame hne
    · obtain ⟨-, -, hcounters, -⟩ := commitWrites_frame f (s.setSchedule l)
      rw [e] at hne ⊢
      exact .inr ⟨f, hf, Bool.eq_true_of_not_eq_false fun hno => hne (hcounters hno).2.2, rfl⟩
  · obtain ⟨t', ht', hsame, -⟩ := busAccess_frame a (s.setSchedule rest)
    obtain rfl := Host.Outcome.next.inj (ht'.symm.trans hacc)
    exact absurd hsame hne

/-- Settles O56: a commit changes its destinations alone, and an access only the bank it writes to. -/
theorem banksChangeOnlyByCommitOrHostWrite : Obligations.BanksChangeOnlyByCommitOrHostWrite := by
  intro s t b ht hne
  obtain ⟨a, rest, hsched, -⟩ | ⟨l, -, rfl⟩ | ⟨a, rest, hsched, -, hacc⟩ := step_cases ht
  · exact .inl ⟨a, by simp [hsched]⟩
  · obtain ⟨hsame, -⟩ | ⟨f, hf, e⟩ := sequencerTurn_sameCore_or_commit (s.setSchedule l)
    · exact absurd (by simp [State.bank, hsame]) hne
    · obtain ⟨hkept, -⟩ := commitWrites_frame f (s.setSchedule l)
      rw [e] at hne ⊢
      exact .inr (.inl ⟨f, hf, by_contra fun hnot => hne (hkept b hnot).1, rfl⟩)
  · obtain ⟨t', ht', -, -, -, -, hbank⟩ := busAccess_frame a (s.setSchedule rest)
    obtain rfl := Host.Outcome.next.inj (ht'.symm.trans hacc)
    obtain hsame | ⟨v, off, w, rfl, hreg, hidle⟩ := hbank b
    · exact absurd hsame hne
    · exact .inr (.inr ⟨off, v, w, by simp [hsched], hreg, hidle⟩)

end Sys2Proof.Safety
end

/-! PROOFS. The host's accesses (O39, O42, O48, O49), the state after reset (O50), and the strict step on unwritten words
(O57). -/

section
namespace Sys2Proof.Machine

open Sys2Proof.Safety

/-! The fields of STATUS. -/

/-- R21: the three fields of STATUS do not overlap. -/
theorem statusFields_toNat : ∀ (code : BitVec 4) (err busy : Bool),
    (place code 4 ||| place (BitVec.ofBool err) 1 ||| place (BitVec.ofBool busy) 0).toNat =
      busy.toNat + 2 * err.toNat + 16 * code.toNat := by decide

theorem State.statusWord_toNat (s : State) :
    s.statusWord.toNat = s.busy.toNat + 2 * s.err.toNat + 16 * s.errCode.toNat :=
  statusFields_toNat s.errCode s.err s.busy

/-- Settles O49: the read is served whatever BUSY is, and the value is the STATUS word. -/
theorem statusFields : Obligations.StatusFields := fun s rest hr =>
  ⟨s.statusWord, step_memRead s 0x204 rest hr rfl, s.statusWord_toNat⟩

/-- Settles O48: the write is served whatever BUSY is. -/
theorem statusWriteClearsErrors : Obligations.StatusWriteClearsErrors := by
  intro s rest v hr
  have hstep : step (s.setSchedule (memWrite 0x204 v :: rest)) =
      .next (if v.getLsbD 1 then ((s.setSchedule rest).respond .done).clearError else (s.setSchedule rest).respond .done) :=
    step_memWrite s 0x204 v rest hr rfl
  constructor
  · intro hv
    rw [hstep, if_pos hv]
    rfl
  · intro hv
    rw [hstep, if_neg (by simpa using hv)]

/-! The constants, the counters and CMPR. -/

/-- Settles O39: a read of each of the five offsets. -/
theorem constantRegistersRead : Obligations.ConstantRegistersRead := by
  intro s rest hr off v hmem
  simp only [List.mem_cons, Prod.mk.injEq, List.not_mem_nil, or_false] at hmem
  obtain ⟨rfl, rfl⟩ | ⟨rfl, rfl⟩ | ⟨rfl, rfl⟩ | ⟨rfl, rfl⟩ | ⟨rfl, rfl⟩ := hmem <;> exact step_memRead s _ rest hr rfl

theorem unlessBusy_of_idle {s : State} (h : s.inFlight = none) (t : State) : unlessBusy s t = t := by
  simp [unlessBusy, State.busy, h]

/-- Settles O42: on an idle core a read answers the register and a write is not turned away. -/
theorem countersReadAndWrite : Obligations.CountersReadAndWrite := by
  intro s rest v hr hidle
  have hread (x : Word) : (s.setSchedule rest).answerIdle x = (s.setSchedule rest).respond (.data x) :=
    answerIdle_of_idle _ x hidle
  have hwrite (t : State) : unlessBusy ((s.setSchedule rest).respond .done) t = t :=
    unlessBusy_of_idle (s := (s.setSchedule rest).respond .done) hidle t
  refine ⟨?_, ?_, ?_, ?_, ?_⟩
  · exact (step_memRead s 0x208 rest hr rfl).trans (congrArg _ (hread _))
  · exact (step_memRead s 0x20C rest hr rfl).trans (congrArg _ (hread _))
  · exact (step_memRead s 0x210 rest hr rfl).trans (congrArg _ (hread _))
  · exact (step_memWrite s 0x208 v rest hr rfl).trans (congrArg _ (hwrite _))
  · exact (step_memWrite s 0x20C v rest hr rfl).trans (congrArg _ (hwrite _))

/-! The state after reset. -/

/-- Settles O50: the values of R30, and of every bank no word written. -/
theorem resetState : Obligations.ResetState := by
  refine ⟨by decide, rfl, rfl, rfl, rfl, rfl, rfl, rfl, rfl, fun b => ?_⟩
  simp [State.writtenMask, State.reset]

/-! A bank word as the host addresses it. -/

theorem bankOffset_toNat (b : BankNo) (w : WordNo) : (bankOffset b w).toNat = 0x40 * b.toNat + 4 * w.toNat := by
  have hb := b.isLt
  have hw := w.isLt
  rw [bankOffset, BitVec.toNat_ofNat]
  omega

theorem bankOffset_aligned (b : BankNo) (w : WordNo) : (bankOffset b w).toNat % 4 = 0 := by
  rw [bankOffset_toNat]
  omega

/-- R33: the offset of a bank word names that word. -/
theorem regOf_bankOffset (b : BankNo) (w : WordNo) : regOf (bankOffset b w) = .bank b w := by
  have hb := b.isLt
  have hw := w.isLt
  have hoff := bankOffset_toNat b w
  have hbank : (bankOffset b w).extractLsb' 6 3 = b := by
    apply BitVec.eq_of_toNat_eq
    rw [BitVec.extractLsb'_toNat, Nat.shiftRight_eq_div_pow]
    omega
  have hword : (bankOffset b w).extractLsb' 2 4 = w := by
    apply BitVec.eq_of_toNat_eq
    rw [BitVec.extractLsb'_toNat, Nat.shiftRight_eq_div_pow]
    omega
  rw [regOf, if_pos (by omega), hbank, hword]

/-- Word `w` is among the written words exactly when its bit is set. -/
theorem wordMask_and_not_eq_zero_iff (w : WordNo) (m : BitVec 16) :
    wordMask w &&& ~~~m = 0#16 ↔ m.getLsbD w.toNat = true := by
  have hw : w.toNat < 16 := w.isLt
  have hne : BitVec.twoPow 16 w.toNat ≠ 0#16 := fun e => by
    have := congrArg (BitVec.getLsbD · w.toNat) e
    simp [hw] at this
  rw [wordMask, ← BitVec.twoPow_eq, BitVec.twoPow_and]
  cases hbit : m.getLsbD w.toNat <;> simp only [BitVec.getLsbD_not, hbit, hw] <;> simp [hne]

/-- R33: what a host read of a bank word on an idle core leaves in the record of unwritten words. -/
theorem readReg_bank_readUnwritten_iff {s : State} (hidle : s.inFlight = none) (b : BankNo) (w : WordNo) :
    (readReg (.bank b w) s).readUnwritten = true ↔
      s.readUnwritten = true ∨ (s.writtenMask b).getLsbD w.toNat = false := by
  have hread : readReg (.bank b w) s = (s.noteRead b (wordMask w)).respond (.data (s.bankWord b w)) := by
    simp [readReg, State.noteHostRead, State.answerIdle, State.answer, State.busy, hidle]
  rw [hread, State.respond_readUnwritten, State.noteRead_readUnwritten_iff, Ne, wordMask_and_not_eq_zero_iff,
    Bool.not_eq_true]

/-! The strict step. -/

/-- An aligned access, with no unwritten word read before it, that reads an unwritten word exactly where `P` fails: the strict
step stops there, and is the step where `P` holds. -/
theorem strictStep_of_aligned {s t : State} {k : AccessKind} {off : BitVec 10} {rest : List Turn} {P : Prop}
    (hsched : s.schedule = .access ⟨k, .w32, off⟩ :: rest) (halign : off.toNat % 4 = 0)
    (hclean : s.readUnwritten = false) (ht : step s = .next t) (hP : t.readUnwritten = true ↔ s.readUnwritten = true ∨ ¬ P) :
    (¬ P → strictStep s = .fault .unwrittenRead) ∧ (P → strictStep s = step s) := by
  have hserved : movesMalformed s = false := by
    rw [s.eq_setSchedule _ hsched, movesMalformed_access, Access.wellFormed_w32 k off halign]
    rfl
  rw [strictStep_of_next ht, strictFault, hserved, hclean, ht]
  simp only [hclean, Bool.false_eq_true, false_or] at hP
  constructor
  · intro hnot
    simp [hP.mpr hnot]
  · intro hp
    have hread : t.readUnwritten = false := by simpa [hp] using hP
    simp [hread]

/-- R47: on an idle core the write of a command word to CMD runs the command it decodes to. -/
theorem step_cmdWrite {s : State} {v : Word} {rest : List Turn} {i : Instr} (hsched : s.schedule = cmdWrite v :: rest)
    (hr : s.inReset = false) (hidle : s.inFlight = none) (hdec : decode v = .ok i) :
    step s = exec i ((s.setSchedule rest).respond .done) := by
  have hpresent : step (s.setSchedule (cmdWrite v :: rest)) = present v ((s.setSchedule rest).respond .done) :=
    step_memWrite s 0x200 v rest hr rfl
  rw [← s.eq_setSchedule _ hsched] at hpresent
  simp [hpresent, present, State.busy, hidle, hdec]

/-- Settles O57: the step of a command, and of a host read, records an unwritten word exactly where it reads one. -/
theorem strictStepFaultsOnUnwrittenWords : Obligations.StrictStepFaultsOnUnwrittenWords := by
  intro s rest hr hidle hclean
  constructor
  · intro v i hsched hdec hadm
    have hstep := (step_cmdWrite hsched hr hidle hdec).trans (exec_of_admissible hadm)
    refine strictStep_of_aligned hsched rfl hclean hstep ?_
    rw [sourcesWritten_iff]
    exact State.noteReads_readUnwritten_iff _ _
  · intro b w hsched
    have hstep : step s = .next (readReg (.bank b w) (s.setSchedule rest)) := by
      rw [← regOf_bankOffset, ← step_memRead s _ rest hr (bankOffset_aligned b w), ← s.eq_setSchedule _ hsched]
    rw [← Bool.not_eq_true]
    refine strictStep_of_aligned hsched (bankOffset_aligned b w) hclean hstep ?_
    rw [Bool.not_eq_true]
    exact readReg_bank_readUnwritten_iff (s := s.setSchedule rest) hidle b w

end Sys2Proof.Machine
end

/-! PROOFS. The byte lanes of a register (O8), the register map (O38), and what an access to the window does: a bank word's
write and read (O41), what no read changes (O45), what is ignored (O40) and what gets a bus error (O46). -/

section
namespace Sys2Proof.Machine

open Sys2Proof.Safety

/-! Byte lanes. -/

/-- R38: bit `j` of a lane. -/
theorem getLsbD_byteLane (v : Word) (k : Nat) {j : Nat} (hj : j < 8) :
    (byteLane v k).getLsbD j = v.getLsbD (8 * k + j) := by
  simp [byteLane, hj]

/-- Lane `k` put back at its place gives the bits of the word whose index lies in lane `k`. -/
theorem getLsbD_place_byteLane (v : Word) (k : Nat) {i : Nat} (hi : i < 32) :
    (place (byteLane v k) (8 * k)).getLsbD i = (decide (i / 8 = k) && v.getLsbD i) := by
  rw [place, BitVec.getLsbD_shiftLeft, BitVec.getLsbD_setWidth]
  by_cases hk : i / 8 = k
  · have hlane : i - 8 * k < 8 := by omega
    have hwide : i - 8 * k < 32 := by omega
    have hbit : 8 * k + (i - 8 * k) = i := by omega
    have hlow : ¬ i < 8 * k := by omega
    rw [getLsbD_byteLane v k hlane, hbit]
    simp [hi, hk, hlow, hwide]
  · have hout : i < 8 * k ∨ 8 ≤ i - 8 * k := by omega
    obtain hlow | hhigh := hout
    · simp [hk, hlow]
    · simp [hk, BitVec.getLsbD_of_ge _ _ hhigh]

/-- R38: the four lanes of a word carry the word. -/
theorem wordOfLanes_byteLanes (v : Word) :
    wordOfLanes (byteLane v 0) (byteLane v 1) (byteLane v 2) (byteLane v 3) = v := by
  apply BitVec.eq_of_getLsbD_eq
  intro i hi
  have hlane : i / 8 = 0 ∨ i / 8 = 1 ∨ i / 8 = 2 ∨ i / 8 = 3 := by omega
  simp only [wordOfLanes, BitVec.getLsbD_or, getLsbD_place_byteLane v 0 hi, getLsbD_place_byteLane v 1 hi,
    getLsbD_place_byteLane v 2 hi, getLsbD_place_byteLane v 3 hi]
  obtain h | h | h | h := hlane <;> simp [h]

/-- Settles O8: the bits of each lane, and the lanes put together. -/
theorem byteLanesAreLittleEndian : Obligations.ByteLanesAreLittleEndian :=
  ⟨fun v k _ _ hj => getLsbD_byteLane v k hj, wordOfLanes_byteLanes⟩

/-! The register map. -/

/-- R31: the window holds every offset from BASE. -/
theorem windowOffset_base_add (off : BitVec 10) : windowOffset (Config.base + off.toNat) = some off := by
  have hlt : off.toNat < 0x400 := off.isLt
  rw [windowOffset, if_pos (by omega), Nat.add_sub_cancel_left, BitVec.ofNat_toNat, BitVec.setWidth_eq]

theorem windowOffset_of_outside {addr : Nat} (h : addr < Config.base ∨ Config.base + 0x400 ≤ addr) :
    windowOffset addr = none :=
  if_neg (by omega)

/-- R32: no register lies above CONST3. -/
theorem regOf_of_above_const {off : BitVec 10} (h : 0x230 ≤ off.toNat) : regOf off = .reserved := by
  rw [regOf, if_neg (by omega)]
  split
  case h_11 => rfl
  all_goals omega

/-- Settles O38: the window, the bank words, and each register at its offset. -/
theorem windowAndRegisterMap : Obligations.WindowAndRegisterMap :=
  ⟨Nat.mul_mod_right _ _, windowOffset_base_add, fun _ => windowOffset_of_outside,
    fun b w => ⟨regOf_bankOffset b w, bankOffset_toNat b w⟩,
    rfl, rfl, rfl, rfl, rfl, rfl, rfl, rfl, rfl, rfl, rfl, rfl, fun _ => regOf_of_above_const⟩

/-! What a read leaves unchanged. -/

theorem State.noteHostRead_eq (s : State) (b : BankNo) (w : WordNo) :
    ∃ m, s.noteHostRead b w = { s with readUnwritten := m } := by
  unfold State.noteHostRead
  split
  · exact ⟨s.readUnwritten, rfl⟩
  · exact ⟨_, rfl⟩

theorem State.answerIdle_eq (s : State) (v : Word) :
    ∃ x n, s.answerIdle v = { s with response := .data x, draws := n } := by
  unfold State.answerIdle
  split
  · exact ⟨Config.busyRead s.draws, s.draws + 1, rfl⟩
  · exact ⟨v, s.draws, rfl⟩

/-- R40: a read answers data, and beside the answer changes the model's own record of free values alone. -/
theorem readReg_eq (r : Reg) (s : State) :
    ∃ x n m, readReg r s = { s with response := .data x, draws := n, readUnwritten := m } := by
  have hidle (v : Word) :
      ∃ x n m, s.answerIdle v = { s with response := .data x, draws := n, readUnwritten := m } := by
    obtain ⟨x, n, e⟩ := s.answerIdle_eq v
    exact ⟨x, n, s.readUnwritten, e⟩
  cases r
  case bank b w =>
    obtain ⟨m, hnote⟩ := s.noteHostRead_eq b w
    obtain ⟨x, n, hanswer⟩ := (s.noteHostRead b w).answerIdle_eq (s.bankWord b w)
    exact ⟨x, n, m, by rw [readReg, hanswer, hnote]⟩
  case matchCnt => exact hidle s.matchCnt
  case trialCnt => exact hidle s.trialCnt
  case cmpr => exact hidle s.cmpr
  all_goals exact ⟨_, s.draws, s.readUnwritten, rfl⟩

/-- Settles O45: the read is served, and a read changes no register. -/
theorem readsHaveNoSideEffect : Obligations.ReadsHaveNoSideEffect := by
  intro s rest off hr halign
  obtain ⟨x, n, m, hread⟩ := readReg_eq (regOf off) (s.setSchedule rest)
  have hstep := step_memRead s off rest hr halign
  rw [hread] at hstep
  exact ⟨_, x, hstep, rfl, ⟨rfl, rfl, rfl, rfl, rfl⟩, rfl, rfl, rfl⟩

/-! Reserved offsets and read-only registers. -/

theorem readReg_of_reserved_or_cmd {r : Reg} (h : r = .reserved ∨ r = .cmd) (s : State) :
    readReg r s = s.respond (.data 0) := by
  obtain rfl | rfl := h <;> rfl

theorem writeReg_of_ignored {r : Reg} (h : r = .reserved ∨ r = .cmpr ∨ r = .id ∨ ∃ k, r = .const k) (v : Word)
    (s : State) : writeReg r v s = .next s := by
  obtain rfl | rfl | rfl | ⟨k, rfl⟩ := h <;> rfl

/-- Settles O40: both accesses are served, whatever BUSY is. -/
theorem reservedAndReadOnly : Obligations.ReservedAndReadOnly := by
  intro s rest off v hr halign
  constructor
  · intro hreg
    rw [step_memRead s off rest hr halign, readReg_of_reserved_or_cmd hreg]
  · intro hreg
    rw [step_memWrite s off v rest hr halign, writeReg_of_ignored hreg]

/-! A bank word written and read by the host. -/

/-- Reading a bank word after one word has been written. -/
theorem State.bankWord_writeWord (s : State) (d b : BankNo) (w u : WordNo) (x : Word) :
    (s.writeWord d w x).bankWord b u = if b = d ∧ u = w then x else s.bankWord b u := by
  rw [State.bankWord, State.bank_writeWord]
  by_cases hb : b = d
  · subst hb
    simp [getWord_putWord, State.bankWord]
  · simp [hb, State.bankWord]

/-- A read of a word that has been written finds no unwritten word (R17). -/
theorem State.noteRead_readUnwritten_of_written {s : State} {b : BankNo} {w : WordNo}
    (h : (s.writtenMask b).getLsbD w.toNat = true) :
    (s.noteRead b (wordMask w)).readUnwritten = s.readUnwritten := by
  rw [Bool.eq_iff_iff, State.noteRead_readUnwritten_iff, Ne, wordMask_and_not_eq_zero_iff]
  simp [h]

/-- A word that the host writes is written from then on (R17). -/
@[simp] theorem State.writtenMask_writeWord_getLsbD (s : State) (b : BankNo) (w : WordNo) (x : Word) :
    ((s.writeWord b w x).writtenMask b).getLsbD w.toNat = true := by
  have hw : w.toNat < 16 := w.isLt
  simp [State.writtenMask_writeWord, wordMask, hw]

/-- R33: a host read of a bank word on an idle core. -/
theorem step_read_bankWord {s : State} {rest : List Turn} {b : BankNo} {w : WordNo}
    (hsched : s.schedule = memRead (bankOffset b w) :: rest) (hr : s.inReset = false) (hidle : s.inFlight = none) :
    step s = .next (((s.setSchedule rest).noteRead b (wordMask w)).respond (.data (s.bankWord b w))) := by
  have hread := step_memRead s (bankOffset b w) rest hr (bankOffset_aligned b w)
  rw [← s.eq_setSchedule _ hsched, regOf_bankOffset] at hread
  simpa [readReg, State.noteHostRead, State.answerIdle, State.answer, State.busy, hidle] using hread

/-- R33: a host write of a bank word on an idle core. -/
theorem step_write_bankWord {s : State} (rest : List Turn) (b : BankNo) (w : WordNo) (v : Word)
    (hr : s.inReset = false) (hidle : s.inFlight = none) :
    step (s.setSchedule (memWrite (bankOffset b w) v :: rest)) =
      .next (((s.setSchedule rest).respond .done).writeWord b w v) := by
  rw [step_memWrite s _ v rest hr (bankOffset_aligned b w), regOf_bankOffset, writeReg,
    unlessBusy_of_idle (by simpa using hidle)]

/-- Settles O41: the write, the read after it, and the read alone. -/
theorem bankWordReadsBack : Obligations.BankWordReadsBack := by
  intro s rest b w v hr hidle
  have hwrite := step_write_bankWord (memRead (bankOffset b w) :: rest) b w v hr hidle
  refine ⟨_, _, hwrite, step_read_bankWord (by rfl) hr hidle, ?_, ?_, ?_, ?_⟩
  · simp [State.bankWord_writeWord]
  · rw [State.respond_readUnwritten, State.noteRead_readUnwritten_of_written (by simp)]
    rfl
  · intro b' w' hother
    simp [State.bankWord_writeWord, hother]
  · have hread := step_read_bankWord (s := s.setSchedule (memRead (bankOffset b w) :: rest)) rfl hr hidle
    exact ⟨_, hread, rfl, ⟨rfl, rfl, rfl, rfl, rfl⟩, rfl, rfl, hidle, rfl⟩

/-! Malformed accesses. -/

/-- R37: the low two bits of the offset are 0 exactly when it is a multiple of 4. -/
theorem Access.wellFormed_iff (a : Access) : a.wellFormed = true ↔ a.width = .w32 ∧ a.off.toNat % 4 = 0 := by
  simp [Access.wellFormed, ← BitVec.toNat_inj]

theorem busAccess_of_malformed {a : Access} (h : a.wellFormed = false) (s : State) :
    busAccess a s = .next ((s.recordError .bus).respond .busError) :=
  if_neg (by simp [h])

/-- Settles O46: the access is not well formed, so `step` answers the bus error and `strictStep` stops. -/
theorem malformedAccessIsBusError : Obligations.MalformedAccessIsBusError := by
  intro s rest a hr hbad
  have hmal : a.wellFormed = false := by
    rw [← Bool.not_eq_true, Access.wellFormed_iff]
    exact not_and_or.mpr hbad
  have hstep := (step_access s a rest hr).trans (busAccess_of_malformed hmal _)
  refine ⟨hstep, ?_⟩
  rw [strictStep_of_next hstep, strictFault, movesMalformed_access, hmal]
  rfl

end Sys2Proof.Machine
end

/-! PROOFS. Decoding and encoding (O3 to O6): the fields of the formats read back, the bits that a row of the opcode map fixes,
and decoding as the choice of a command by opcode and E followed by the check of that command's row. -/

section
namespace Sys2Proof

/-! A field placed in a word. -/

theorem getLsbD_place {n : Nat} (x : BitVec n) (lo : Nat) {i : Nat} (hi : i < 32) :
    (place x lo).getLsbD i = (decide (lo ≤ i) && x.getLsbD (i - lo)) := by
  by_cases h : lo ≤ i
  · simp [place, hi, h, Nat.not_lt.mpr h]
  · simp [place, h, Nat.lt_of_not_le h]

/-- A field read back from the place it was put. -/
theorem extractLsb'_place_same {n lo : Nat} (x : BitVec n) (h : lo + n ≤ 32) : (place x lo).extractLsb' lo n = x := by
  apply BitVec.eq_of_getLsbD_eq
  intro i hi
  rw [BitVec.getLsbD_extractLsb', getLsbD_place x lo (by omega), Nat.add_sub_cancel_left]
  simp [hi]

/-- Other fields are 0 in a word that holds one field alone. -/
theorem extractLsb'_place_of_disjoint {n m lo lo' : Nat} (x : BitVec n) (h : lo + n ≤ lo' ∨ lo' + m ≤ lo)
    (hm : lo' + m ≤ 32) : (place x lo).extractLsb' lo' m = 0#m := by
  apply BitVec.eq_of_getLsbD_eq
  intro i hi
  rw [BitVec.getLsbD_extractLsb', getLsbD_place x lo (by omega), BitVec.getLsbD_zero]
  obtain h | h := h
  · simp [BitVec.getLsbD_of_ge x (lo' + i - lo) (by omega)]
  · simp [show ¬ lo ≤ lo' + i by omega]

/-- A field read from a word and put back is the bits of the word that lie in the field. -/
theorem getLsbD_place_extractLsb' (v : Word) (lo n : Nat) {i : Nat} (hi : i < 32) :
    (place (v.extractLsb' lo n) lo).getLsbD i = (decide (lo ≤ i ∧ i < lo + n) && v.getLsbD i) := by
  rw [getLsbD_place _ _ hi, BitVec.getLsbD_extractLsb']
  by_cases h : lo ≤ i
  · have hbit : lo + (i - lo) = i := by omega
    have hiff : i - lo < n ↔ i < lo + n := by omega
    simp [h, hbit, hiff]
  · simp [h]

/-- Two fields side by side, read from one word and put back, are one wider field. -/
theorem place_extractLsb'_join {n m lo mid : Nat} (v : Word) (h : mid = lo + n) :
    place (v.extractLsb' mid m) mid ||| place (v.extractLsb' lo n) lo = place (v.extractLsb' lo (n + m)) lo := by
  apply BitVec.eq_of_getLsbD_eq
  intro i hi
  have hiff : (mid ≤ i ∧ i < mid + m) ∨ (lo ≤ i ∧ i < lo + n) ↔ lo ≤ i ∧ i < lo + (n + m) := by omega
  rw [BitVec.getLsbD_or, getLsbD_place_extractLsb' v mid m hi, getLsbD_place_extractLsb' v lo n hi,
    getLsbD_place_extractLsb' v lo (n + m) hi, ← Bool.and_or_distrib_right, ← Bool.decide_or, decide_eq_decide.mpr hiff]

theorem place_zero (n lo : Nat) : place 0#n lo = 0#32 := by
  simp [place]

theorem place_extractLsb'_whole (v : Word) : place (v.extractLsb' 0 32) 0 = v := by
  simp [place]

/-- The bits of a word from `lo` up, read and put back, are the word where it is 0 below `lo`. -/
theorem place_extractLsb'_eq {lo n : Nat} (v : Word) (h : lo + n = 32) (hlow : v.extractLsb' 0 lo = 0#lo) :
    place (v.extractLsb' lo n) lo = v := by
  have hjoin := place_extractLsb'_join (lo := 0) (n := lo) (m := n) v (Nat.zero_add lo).symm
  rw [hlow, place_zero, BitVec.or_zero] at hjoin
  rw [hjoin, h]
  exact place_extractLsb'_whole v

/-- A bit read as a field of width 1. -/
theorem ofBool_getLsbD (v : Word) (i : Nat) : BitVec.ofBool (v.getLsbD i) = v.extractLsb' i 1 := by
  apply BitVec.eq_of_getLsbD_eq
  intro j hj
  obtain rfl : j = 0 := by omega
  simp

theorem fieldE_eq (v : Word) : BitVec.ofBool (fieldE v) = v.extractLsb' 7 1 := ofBool_getLsbD v 7

theorem fieldF_eq (v : Word) : BitVec.ofBool (fieldF v) = v.extractLsb' 6 1 := ofBool_getLsbD v 6

/-! The fields of the formats, read back. -/

@[simp] theorem fieldOp_formatN (op : BitVec 5) : fieldOp (formatN op) = op :=
  extractLsb'_place_same op (le_refl _)

@[simp] theorem fields_formatQ (op : BitVec 5) (d a g : BitVec 3) :
    fieldOp (formatQ op d a g) = op ∧ fieldD (formatQ op d a g) = d ∧ fieldA (formatQ op d a g) = a ∧
      fieldB (formatQ op d a g) = g := by
  simp (disch := decide) [fieldOp, fieldD, fieldA, fieldB, formatQ, BitVec.extractLsb'_or, extractLsb'_place_same,
    extractLsb'_place_of_disjoint]

@[simp] theorem fields_formatT (op : BitVec 5) (d a p : BitVec 3) (ra rb : BitVec 5) (e f : Bool) :
    fieldOp (formatT op d a p ra rb e f) = op ∧ fieldD (formatT op d a p ra rb e f) = d ∧
      fieldA (formatT op d a p ra rb e f) = a ∧ fieldB (formatT op d a p ra rb e f) = p ∧
      fieldRA (formatT op d a p ra rb e f) = ra ∧ fieldRB (formatT op d a p ra rb e f) = rb ∧
      fieldE (formatT op d a p ra rb e f) = e ∧ fieldF (formatT op d a p ra rb e f) = f := by
  have hbit : ∀ {x y : Bool}, BitVec.ofBool x = BitVec.ofBool y → x = y := by decide
  refine ⟨?_, ?_, ?_, ?_, ?_, ?_, hbit ?_, hbit ?_⟩ <;>
    simp (disch := decide) [fieldOp, fieldD, fieldA, fieldB, fieldRA, fieldRB, fieldE_eq, fieldF_eq, formatT,
      BitVec.extractLsb'_or, extractLsb'_place_same, extractLsb'_place_of_disjoint]

@[simp] theorem fields_formatC (op : BitVec 5) (k0 k1 k2 k3 : BitVec 3) (w : BitVec 4) (n : BitVec 5) :
    fieldOp (formatC op k0 k1 k2 k3 w n) = op ∧ fieldD (formatC op k0 k1 k2 k3 w n) = k0 ∧
      fieldA (formatC op k0 k1 k2 k3 w n) = k1 ∧ fieldB (formatC op k0 k1 k2 k3 w n) = k2 ∧
      fieldK3 (formatC op k0 k1 k2 k3 w n) = k3 ∧ fieldW (formatC op k0 k1 k2 k3 w n) = w ∧
      fieldN (formatC op k0 k1 k2 k3 w n) = n := by
  simp (disch := decide) [fieldOp, fieldD, fieldA, fieldB, fieldK3, fieldW, fieldN, formatC, BitVec.extractLsb'_or,
    extractLsb'_place_same, extractLsb'_place_of_disjoint]

/-! A word made up again from its fields. The hypotheses name the fields that a command fixes. -/

section FieldsMakeUpTheWord

variable {v : Word} {op : BitVec 5} {d a b k3 : BitVec 3} (hop : fieldOp v = op) (hd : fieldD v = d) (ha : fieldA v = a)
  (hb : fieldB v = b)
include hop

theorem formatN_eq (hlow : v.extractLsb' 0 27 = 0#27) : formatN op = v := by
  subst hop
  exact place_extractLsb'_eq v rfl hlow

include hd ha hb

theorem formatQ_eq (hlow : v.extractLsb' 0 18 = 0#18) : formatQ op d a b = v := by
  subst hop hd ha hb
  simp (disch := decide) only [formatQ, fieldOp, fieldD, fieldA, fieldB, place_extractLsb'_join]
  exact place_extractLsb'_eq v (by rfl) hlow

theorem formatT_eq {ra rb : BitVec 5} {e f : Bool} (hra : fieldRA v = ra) (hrb : fieldRB v = rb) (he : fieldE v = e)
    (hf : fieldF v = f) (hlow : v.extractLsb' 0 6 = 0#6) : formatT op d a b ra rb e f = v := by
  subst hop hd ha hb hra hrb he hf
  simp (disch := decide) only [formatT, fieldE_eq, fieldF_eq, fieldOp, fieldD, fieldA, fieldB, fieldRA, fieldRB,
    place_extractLsb'_join]
  exact place_extractLsb'_eq v (by rfl) hlow

theorem formatC_eq {w : BitVec 4} {n : BitVec 5} (hk3 : fieldK3 v = k3) (hw : fieldW v = w) (hn : fieldN v = n)
    (hlow : v.extractLsb' 0 6 = 0#6) : formatC op d a b k3 w n = v := by
  subst hop hd ha hb hk3 hw hn
  simp (disch := decide) only [formatC, fieldOp, fieldD, fieldA, fieldB, fieldK3, fieldW, fieldN, place_extractLsb'_join]
  exact place_extractLsb'_eq v (by rfl) hlow

end FieldsMakeUpTheWord

/-! The bits that a row fixes. -/

theorem Row.accepts_iff (r : Row) (v : Word) : r.accepts v = true ↔ v &&& r.mask = r.pattern := by
  simp [Row.accepts]

/-- A field that lies in the row's mask is the row's in every word that the row accepts. -/
theorem Row.field_of_accepts {r : Row} {v : Word} (h : r.accepts v = true) {lo n : Nat} {x : BitVec n}
    (hmask : r.mask.extractLsb' lo n = BitVec.allOnes n) (hpattern : r.pattern.extractLsb' lo n = x) :
    v.extractLsb' lo n = x := by
  rw [← hpattern, ← (r.accepts_iff v).mp h, BitVec.extractLsb'_and, hmask, BitVec.and_allOnes]

/-- A bit that lies in the row's mask. -/
theorem Row.bit_of_accepts {r : Row} {v : Word} (h : r.accepts v = true) {i : Nat} {x : Bool}
    (hmask : r.mask.getLsbD i = true) (hpattern : r.pattern.getLsbD i = x) : v.getLsbD i = x := by
  rw [← hpattern, ← (r.accepts_iff v).mp h, BitVec.getLsbD_and, hmask, Bool.and_true]

/-! Decoding in two parts: the choice of a command, and the check of its row. -/

/-- The command that a word's opcode and E choose, with the word's fields as its operands, whatever the reserved bits
(R57, R58). -/
def chosen (v : Word) : Option Instr :=
  match (fieldOp v).toNat with
  | 0 => some .nop
  | 1 => some (.qr (fieldD v) (fieldA v) (fieldB v))
  | 2 => some (.iqr (fieldD v) (fieldA v) (fieldB v))
  | 3 =>
    some (if fieldE v then .blkSnap (fieldD v) (fieldA v) (fieldB v) (fieldRA v) (fieldRB v) (fieldF v)
      else .blk (fieldD v) (fieldA v) (fieldRA v) (fieldF v))
  | 4 => some (.invp (fieldD v) (fieldA v) (fieldRA v) (fieldRB v))
  | 5 => some (.add (fieldD v) (fieldA v) (fieldB v))
  | 6 => some (.sub (fieldD v) (fieldA v) (fieldB v))
  | 7 => some (.copy (fieldD v) (fieldA v))
  | 8 => some (.const (fieldD v) (fieldA v))
  | 9 => some (.xbit (fieldD v) (fieldA v) (fieldW v) (fieldN v))
  | 10 => some (.rotl (fieldD v) (fieldA v) (fieldW v) (fieldN v))
  | 11 => some (.rotr (fieldD v) (fieldA v) (fieldW v) (fieldN v))
  | 12 => some (.cmp2 (fieldD v) (fieldA v) (fieldW v) (fieldN v))
  | 13 => some (.cmp4 (fieldD v) (fieldA v) (fieldB v) (fieldK3 v) (fieldW v) (fieldN v))
  | 14 => some .clrc
  | _ => none

/-- R49: no command is E_OPCODE, and the check of the chosen command's row is the check of the reserved bits. -/
theorem decode_eq (v : Word) :
    decode v = (chosen v).elim (.error .opcode) fun i => checked (rowOf i) v i := by
  unfold decode chosen
  generalize (fieldOp v).toNat = op
  split
  case h_4 => split <;> rfl
  case h_16 => simp [*]
  all_goals rfl

/-- R58: exactly opcodes 15 to 31 choose no command. -/
theorem chosen_eq_none_iff (v : Word) : chosen v = none ↔ 15 ≤ (fieldOp v).toNat := by
  unfold chosen
  split
  case h_16 =>
    simp only [imp_false, true_iff] at *
    omega
  all_goals simp [*]

theorem decode_eq_ok_iff (v : Word) (i : Instr) :
    decode v = .ok i ↔ chosen v = some i ∧ (rowOf i).accepts v = true := by
  rw [decode_eq]
  cases hc : chosen v with
  | none => simp
  | some j =>
    simp only [Option.elim_some, Option.some.injEq, checked]
    constructor
    · intro h
      split at h
      · next hacc =>
        cases h
        exact ⟨rfl, hacc⟩
      · cases h
    · rintro ⟨rfl, hacc⟩
      rw [if_pos hacc]

theorem decode_eq_opcode_iff (v : Word) : decode v = .error .opcode ↔ chosen v = none := by
  rw [decode_eq]
  cases chosen v with
  | none => simp
  | some i => cases hacc : (rowOf i).accepts v <;> simp [checked, hacc]

theorem decode_eq_rsvd_iff (v : Word) :
    decode v = .error .rsvd ↔ ∃ i, chosen v = some i ∧ (rowOf i).accepts v = false := by
  rw [decode_eq]
  cases chosen v with
  | none => simp
  | some i => cases hacc : (rowOf i).accepts v <;> simp [checked, hacc]

/-! The statements. -/

/-- R50 to R55: the word of a command chooses the command. -/
theorem chosen_encode (i : Instr) : chosen (encode i) = some i := by
  cases i <;> simp [chosen, encode]

/-- Settles O3: the word of a command chooses it, and lies in its row. -/
theorem decodeOfEncode : Obligations.DecodeOfEncode := fun i =>
  (decode_eq_ok_iff _ i).mpr ⟨chosen_encode i, Laws.InRow.all i⟩

/-- The row's fixed bits and the chosen command's fields are the whole word: each field of the format is fixed by the row
(`field`, `bit`) or an operand read from the word (`rfl`). -/
theorem encode_of_chosen {v : Word} {i : Instr} (hc : chosen v = some i) (hacc : (rowOf i).accepts v = true) :
    encode i = v := by
  have field {lo n : Nat} {x : BitVec n} := Row.field_of_accepts hacc (lo := lo) (x := x)
  have bit {j : Nat} {x : Bool} := Row.bit_of_accepts hacc (i := j) (x := x)
  unfold chosen at hc
  split at hc
  case h_16 => cases hc
  case' h_4 => split at hc
  all_goals
    cases hc
    simp only [encode, rowOf] at field bit ⊢
  case h_4.isTrue he => exact formatT_eq (field rfl rfl) rfl rfl rfl rfl rfl he rfl (field rfl rfl)
  case h_4.isFalse =>
    exact formatT_eq (field rfl rfl) rfl rfl (field rfl rfl) rfl (field rfl rfl) (bit rfl rfl) rfl (field rfl rfl)
  case h_5 =>
    exact formatT_eq (field rfl rfl) rfl rfl (field rfl rfl) rfl rfl (bit rfl rfl) (bit rfl rfl) (field rfl rfl)
  case h_1 | h_15 => exact formatN_eq (field rfl rfl) (field rfl rfl)
  case h_2 | h_3 | h_6 | h_7 => exact formatQ_eq (field rfl rfl) rfl rfl rfl (field rfl rfl)
  case h_8 | h_9 => exact formatQ_eq (field rfl rfl) rfl rfl (field rfl rfl) (field rfl rfl)
  case h_14 => exact formatC_eq (field rfl rfl) rfl rfl rfl rfl rfl rfl (field rfl rfl)
  all_goals exact formatC_eq (field rfl rfl) rfl rfl (field rfl rfl) (field rfl rfl) rfl rfl (field rfl rfl)

/-- Settles O4: the word chooses the command and its row accepts it. -/
theorem encodeOfDecode : Obligations.EncodeOfDecode := fun v i h =>
  have ⟨hc, hacc⟩ := (decode_eq_ok_iff v i).mp h
  encode_of_chosen hc hacc

theorem rowOf_mem_opcodeTable (i : Instr) : rowOf i ∈ opcodeTable := by
  cases i <;> simp [rowOf, opcodeTable]

/-- R57: in a word that a row accepts, the row's opcode, and for OP 3 its E, choose a command of that row. -/
theorem chosen_of_accepts {r : Row} {v : Word} (hr : r ∈ opcodeTable) (h : r.accepts v = true) :
    ∃ i, chosen v = some i ∧ rowOf i = r := by
  have hmask : ∀ r ∈ opcodeTable, r.mask.extractLsb' 27 5 = BitVec.allOnes 5 := by decide
  have hop : fieldOp v = fieldOp r.pattern := Row.field_of_accepts h (hmask r hr) rfl
  unfold chosen
  rw [hop]
  simp only [opcodeTable, List.mem_cons, List.not_mem_nil, or_false] at hr
  obtain rfl | rfl | rfl | rfl | rfl | rfl | rfl | rfl | rfl | rfl | rfl | rfl | rfl | rfl | rfl | rfl := hr
  case inr.inr.inr.inl =>
    have he : fieldE v = false := Row.bit_of_accepts h rfl rfl
    exact ⟨_, rfl, by rw [he]; rfl⟩
  case inr.inr.inr.inr.inl =>
    have he : fieldE v = true := Row.bit_of_accepts h rfl rfl
    exact ⟨_, rfl, by rw [he]; rfl⟩
  all_goals exact ⟨_, rfl, rfl⟩

/-- Settles O5: the word chooses a command of the row that accepts it. -/
theorem rowAcceptedWordDecodes : Obligations.RowAcceptedWordDecodes := by
  intro r v hr hacc
  obtain ⟨i, hc, hi⟩ := chosen_of_accepts hr hacc
  subst hi
  exact ⟨i, (decode_eq_ok_iff v i).mpr ⟨hc, hacc⟩, rfl⟩

/-- R49: no row accepts a word whose chosen command's row does not. -/
theorem no_row_accepts_iff {v : Word} {i : Instr} (hc : chosen v = some i) :
    (∀ r ∈ opcodeTable, r.accepts v = false) ↔ (rowOf i).accepts v = false := by
  constructor
  · intro h
    exact h _ (rowOf_mem_opcodeTable i)
  · intro h r hr
    by_contra hacc
    obtain ⟨j, hj, rfl⟩ := chosen_of_accepts hr (by simpa using hacc)
    obtain rfl : i = j := Option.some.inj (hc.symm.trans hj)
    exact hacc h

/-- Settles O6: the two parts of decoding fail with the two errors. -/
theorem decodeErrorsAreOpcodeThenReserved : Obligations.DecodeErrorsAreOpcodeThenReserved := by
  intro v
  refine ⟨(decode_eq_opcode_iff v).trans (chosen_eq_none_iff v), ?_⟩
  have hop := chosen_eq_none_iff v
  rw [decode_eq_rsvd_iff]
  cases hc : chosen v with
  | none =>
    have hhigh : ¬ (fieldOp v).toNat ≤ 14 := by
      have := hop.mp hc
      omega
    simp [hhigh]
  | some i =>
    have hlow : (fieldOp v).toNat ≤ 14 := by
      by_contra hhigh
      rw [hop.mpr (by omega)] at hc
      cases hc
    simp [hlow, no_row_accepts_iff hc]

end Sys2Proof
end

/-! PROOFS. Presenting a command word (O1, O2), and accepting or rejecting the command (O24, O32). -/

section
namespace Sys2Proof.Machine

open Sys2Proof.Safety

/-- Settles O1: the write presents the word, and the decoder accepts it. -/
theorem stepRunsDecodedCommand : Obligations.StepRunsDecodedCommand :=
  fun _ _ _ _ hsched hr hidle hdec => step_cmdWrite hsched hr hidle hdec

/-- R47: a write to CMD, with reset not asserted, presents its word. -/
theorem step_cmdWrite_eq_present {s : State} {v : Word} {rest : List Turn} (hsched : s.schedule = cmdWrite v :: rest)
    (hr : s.inReset = false) : step s = present v ((s.setSchedule rest).respond .done) := by
  rw [s.eq_setSchedule _ hsched]
  exact step_memWrite s 0x200 v rest hr rfl

/-- R47, R49: on an idle core a word that does not decode records the decoder's error. -/
theorem present_of_decode_error {s : State} {v : Word} {c : ErrCode} (hidle : s.inFlight = none)
    (hdec : decode v = .error c) : present v s = .next (s.recordError c) := by
  simp [present, State.busy, hidle, hdec]

/-- Settles O2: the write presents the word, and the decoder rejects it. -/
theorem undecodableWordOnlyRecordsItsError : Obligations.UndecodableWordOnlyRecordsItsError :=
  fun _ _ _ _ hsched hr hidle hdec => (step_cmdWrite_eq_present hsched hr).trans (present_of_decode_error hidle hdec)

/-- Settles O24: each command fails check 3 of R49. -/
theorem rangeErrorsRejected : Obligations.RangeErrorsRejected := by
  constructor
  · intro d a p r k fin s h
    have hout : decide (k.toNat ≤ r.toNat) = false := by simpa using h
    exact ⟨exec_of_out_of_range s hout, exec_of_out_of_range s hout⟩
  · intro d a w s
    exact ⟨exec_of_out_of_range s rfl, exec_of_out_of_range s rfl⟩

/-- Settles O32: what an admissible command's acceptance leaves, and the error of any other. -/
theorem acceptedOrRejected : Obligations.AcceptedOrRejected := by
  intro i s
  refine ⟨fun hadm => ?_, exec_of_not_admissible⟩
  obtain ⟨t, hexec, hcore, hworld⟩ := exec_next i s
  obtain rfl := Host.Outcome.next.inj ((exec_of_admissible hadm).symm.trans hexec)
  have hnoted := s.noteReads_eq (sources i)
  refine ⟨_, jobOf i s, hexec, rfl, jobOf_cmd i s, jobOk_jobOf s hadm.1, hcore, hworld, ?_, ?_, ?_⟩
  · rw [hnoted]
    rfl
  · rw [hnoted]
    rfl
  · rw [sourcesWritten_iff]
    exact s.noteReads_readUnwritten_iff (sources i)

end Sys2Proof.Machine
end

/-! PROOFS. The command in flight: its rounds and its commit (O34), the bound on its moves (O35), and that no access disturbs it
(O36). -/

section
namespace Sys2Proof.Machine

open Sys2Proof.Safety

/-! Moves of the sequencer, in turn. -/

theorem State.setInFlight_self {s : State} {f : Option InFlight} (h : s.inFlight = f) : s.setInFlight f = s := by
  subst h
  rfl

theorem sequencerTurn_of_idle {s : State} (h : s.inFlight = none) : sequencerTurn s = s := by
  simp [sequencerTurn, h]

theorem sequencerTurn_of_round_left {s : State} {f : InFlight} (hf : s.inFlight = some f) (hleft : roundsLeft f ≠ 0) :
    sequencerTurn s = s.setInFlight (some (roundStep f)) := by
  simp [sequencerTurn, hf, hleft]

theorem sequencerTurn_of_no_round_left {s : State} {f : InFlight} (hf : s.inFlight = some f) (hleft : roundsLeft f = 0) :
    sequencerTurn s = commit f s := by
  simp [sequencerTurn, hf, hleft]

theorem sequencerTurns_of_idle (n : Nat) {s : State} (h : s.inFlight = none) : sequencerTurns n s = s := by
  induction n with
  | zero => rfl
  | succ n ih => rw [sequencerTurns, sequencerTurn_of_idle h, ih]

theorem sequencerTurns_add (m n : Nat) (s : State) : sequencerTurns (m + n) s = sequencerTurns n (sequencerTurns m s) := by
  induction m generalizing s with
  | zero => rw [Nat.zero_add, sequencerTurns]
  | succ m ih => rw [Nat.succ_add, sequencerTurns, ih, sequencerTurns]

/-- While rounds are left, moves of the sequencer do rounds and nothing else. -/
theorem sequencerTurns_of_rounds_left {n : Nat} {s : State} {f : InFlight} (hf : s.inFlight = some f)
    (hn : n ≤ roundsLeft f) : sequencerTurns n s = s.setInFlight (some (roundSteps n f)) := by
  induction n generalizing s f with
  | zero => exact (State.setInFlight_self hf).symm
  | succ n ih =>
    have hleft : roundsLeft f ≠ 0 := by omega
    have hdone := roundsLeft_roundStep f hleft
    rw [sequencerTurns, sequencerTurn_of_round_left hf hleft, ih rfl (by omega)]
    rfl

theorem roundsLeft_roundSteps {n : Nat} {f : InFlight} (hn : n ≤ roundsLeft f) :
    roundsLeft (roundSteps n f) + n = roundsLeft f := by
  induction n generalizing f with
  | zero => rfl
  | succ n ih =>
    have hdone := roundsLeft_roundStep f (by omega)
    have hrest := ih (f := roundStep f) (by omega)
    rw [roundSteps]
    omega

/-- One move after the last round, the command has settled. -/
theorem sequencerTurns_settle {s : State} {f : InFlight} (hf : s.inFlight = some f) :
    sequencerTurns (roundsLeft f + 1) s = settle s := by
  have hnone : roundsLeft (roundSteps (roundsLeft f) f) = 0 := by
    have := roundsLeft_roundSteps (le_refl (roundsLeft f))
    omega
  rw [sequencerTurns_add, sequencerTurns_of_rounds_left hf (le_refl _), sequencerTurns,
    sequencerTurn_of_no_round_left rfl hnone, commit_setInFlight, sequencerTurns]
  simp [settle, hf]

theorem settle_inFlight (s : State) : (settle s).inFlight = none := by
  unfold settle
  split
  · assumption
  · rfl

/-- Settles O34: the rounds that are left leave the core alone, and the commit comes after the last. -/
theorem commandCommitsAfterItsRounds : Obligations.CommandCommitsAfterItsRounds := by
  constructor
  · intro s
    refine ⟨fun h => ?_, fun rest h => ?_, sequencerTurn_of_idle⟩
    · simp [step, takeTurn, h]
    · simp [step, takeTurn, h]
  · intro s f hf
    refine ⟨fun n hn => ?_, sequencerTurns_settle hf, (settle s).busy_eq_false_iff.mpr (settle_inFlight s)⟩
    rw [sequencerTurns_of_rounds_left hf hn]
    exact ⟨rfl, ⟨rfl, rfl, rfl, rfl, rfl⟩, rfl, rfl⟩

/-- A round number is at most 31, and so is the number of rounds of a command. -/
theorem roundsLeft_le_of_jobOk {f : InFlight} (h : JobOk f) : roundsLeft f ≤ 31 := by
  obtain ⟨cmd, srcA, srcB, srcK, work, round, snap⟩ := f
  cases cmd
  case blk d a r fin =>
    have hr : r.toNat < 32 := r.isLt
    simp only [roundsLeft]
    omega
  case blkSnap d a p r k fin =>
    have hr : r.toNat < 32 := r.isLt
    simp only [roundsLeft]
    omega
  case invp d a hi lo =>
    obtain ⟨-, hround, -⟩ := h
    have hhi : hi.toNat < 32 := hi.isLt
    simp only [roundsLeft] at hround ⊢
    omega
  all_goals exact Nat.zero_le 31

/-- Settles O35: at most 31 rounds and the commit, after which the sequencer is idle. -/
theorem everyCommandCommits : Obligations.EveryCommandCommits := by
  intro s hinv
  rw [State.busy_eq_false_iff]
  cases hf : s.inFlight with
  | none => rw [sequencerTurns_of_idle 32 hf, hf]
  | some f =>
    have hle := roundsLeft_le_of_jobOk (hinv.inFlight f hf).2
    have hsum : 32 = (roundsLeft f + 1) + (31 - roundsLeft f) := by omega
    have hidle := settle_inFlight s
    rw [hsum, sequencerTurns_add, sequencerTurns_settle hf, sequencerTurns_of_idle _ hidle, hidle]

/-! Accesses while BUSY = 1. -/

/-- R129: a write while BUSY = 1 records E_BUSY, clears the error, or does nothing. -/
theorem writeReg_of_busy {s : State} (h : s.busy = true) (r : Reg) (v : Word) :
    ∃ e c, writeReg r v s = .next { s with err := e, errCode := c } := by
  have hkept : ∃ e c, Host.Outcome.next (φ := Fault) (ρ := Refusal) s = .next { s with err := e, errCode := c } :=
    ⟨s.err, s.errCode, rfl⟩
  cases r
  case cmd => exact ⟨_, _, if_pos h⟩
  case bank b w => exact ⟨_, _, congrArg _ (if_pos h)⟩
  case matchCnt => exact ⟨_, _, congrArg _ (if_pos h)⟩
  case trialCnt => exact ⟨_, _, congrArg _ (if_pos h)⟩
  case status =>
    rw [writeReg]
    split
    · exact ⟨_, _, rfl⟩
    · exact hkept
  all_goals exact hkept

/-- R48, R129, R130: an access while BUSY = 1 leaves the command in flight and the registers it works on alone. -/
theorem busAccess_of_busy {s : State} (h : s.busy = true) (a : Access) :
    ∃ t, busAccess a s = .next t ∧ SameCore s t ∧ t.inFlight = s.inFlight ∧ t.schedule = s.schedule := by
  unfold busAccess
  split
  · split
    · obtain ⟨x, n, m, hread⟩ := readReg_eq (regOf a.off) s
      rw [hread]
      exact ⟨_, rfl, ⟨rfl, rfl, rfl, rfl, rfl⟩, rfl, rfl⟩
    · next v _ =>
      obtain ⟨e, c, hwrite⟩ := writeReg_of_busy (s := s.respond .done) h (regOf a.off) v
      exact ⟨_, hwrite, ⟨rfl, rfl, rfl, rfl, rfl⟩, rfl, rfl⟩
  · exact ⟨_, rfl, ⟨rfl, rfl, rfl, rfl, rfl⟩, rfl, rfl⟩

/-- Settles O36: reset is not asserted, so the access is served. -/
theorem busyAccessDisturbsNothing : Obligations.BusyAccessDisturbsNothing := by
  intro s a rest hsched hr hbusy
  have hstep := step_access s a rest hr
  rw [← s.eq_setSchedule _ hsched] at hstep
  rw [hstep]
  exact busAccess_of_busy (s := s.setSchedule rest) hbusy a

end Sys2Proof.Machine
end

/-! PROOFS. The rotations (O9, O10), the quarter rounds (O11), and the groups of a round (O12 to O14): groups with no word in
common commute, so a round and its inverse may take their groups in any order; then ranges of rounds (O15). -/

section
namespace Sys2Proof.Machine

/-! Rotations. -/

/-- R62: the two shifts of `rotl32` carry bit `j` to bit `j + s`, around the word. -/
theorem getLsbD_rotl32 (x : Word) {s j : Nat} (hs : s < 32) (hj : j < 32) :
    (rotl32 x s).getLsbD ((j + s) % 32) = x.getLsbD j := by
  have hrot : rotl32 x s = x.rotateLeft s := (BitVec.rotateLeft_eq_rotateLeftAux_of_lt hs).symm
  rw [hrot, BitVec.getLsbD_rotateLeft, Nat.mod_eq_of_lt hs]
  by_cases hwrap : j + s < 32
  · have hge : ¬ j + s < s := by omega
    simp [Nat.mod_eq_of_lt hwrap, hge, hwrap]
  · have hmod : (j + s) % 32 = j + s - 32 := by omega
    have hlt : j + s - 32 < s := by omega
    have hback : 32 - s + (j + s - 32) = j := by omega
    simp [hmod, hlt, hback]

/-- R62: the two shifts of `rotr32` carry bit `j + s`, around the word, to bit `j`. -/
theorem getLsbD_rotr32 (x : Word) {s j : Nat} (hs : s < 32) (hj : j < 32) :
    (rotr32 x s).getLsbD j = x.getLsbD ((j + s) % 32) := by
  have hrot : rotr32 x s = x.rotateRight s := (BitVec.rotateRight_eq_rotateRightAux_of_lt hs).symm
  rw [hrot, BitVec.getLsbD_rotateRight, Nat.mod_eq_of_lt hs]
  by_cases hwrap : j < 32 - s
  · have hmod : (j + s) % 32 = s + j := by omega
    simp [hwrap, hmod]
  · have hmod : (j + s) % 32 = j - (32 - s) := by omega
    simp [hwrap, hj, hmod]

/-- Settles O9: both rotations move every bit by `s` places around the word. -/
theorem rotationsAreCircular : Obligations.RotationsAreCircular := fun x _ _ hs _ hj =>
  ⟨getLsbD_rotl32 x (Nat.lt_succ_of_le hs) hj, getLsbD_rotr32 x (Nat.lt_succ_of_le hs) hj⟩

/-- R63: bit `j` goes to bit `j + s` and comes back. -/
theorem rotr32_rotl32 (x : Word) {s : Nat} (hs : s < 32) : rotr32 (rotl32 x s) s = x := by
  apply BitVec.eq_of_getLsbD_eq
  intro j hj
  rw [getLsbD_rotr32 _ hs hj, getLsbD_rotl32 x hs hj]

/-- R63: bit `j` comes from bit `j - s` around the word, and that from bit `j`. -/
theorem rotl32_rotr32 (x : Word) {s : Nat} (hs : s < 32) : rotl32 (rotr32 x s) s = x := by
  apply BitVec.eq_of_getLsbD_eq
  intro j hj
  have hround : ((j + (32 - s)) % 32 + s) % 32 = j := by omega
  have hbit := getLsbD_rotl32 (rotr32 x s) hs (Nat.mod_lt (j + (32 - s)) (by decide))
  rwa [getLsbD_rotr32 x hs (Nat.mod_lt _ (by decide)), hround] at hbit

/-- Settles O10: each follows from where the two rotations carry a bit. -/
theorem rotationsAreInverse : Obligations.RotationsAreInverse := fun x _ _ hs =>
  ⟨rotr32_rotl32 x (Nat.lt_succ_of_le hs), rotl32_rotr32 x (Nat.lt_succ_of_le hs)⟩

/-! Quarter rounds: R65 undoes the steps of R64 from the last to the first. -/

/-- R65 undoes the step of R64 that xors `y` in and rotates. -/
theorem rotr32_rotl32_xor (x y : Word) {s : Nat} (hs : s < 32) : rotr32 (rotl32 (x ^^^ y) s) s ^^^ y = x := by
  rw [rotr32_rotl32 _ hs, BitVec.xor_assoc, BitVec.xor_self, BitVec.xor_zero]

/-- R64 undoes the step of R65 that rotates and xors `y` in. -/
theorem rotl32_rotr32_xor (x y : Word) {s : Nat} (hs : s < 32) : rotl32 (rotr32 x s ^^^ y ^^^ y) s = x := by
  rw [BitVec.xor_assoc, BitVec.xor_self, BitVec.xor_zero, rotl32_rotr32 _ hs]

/-- R66: each xor and rotation is undone, and each sum. -/
theorem iqr_qr (t : Quad) : iqr (qr t) = t := by
  simp only [iqr, qr, rotr32_rotl32_xor, BitVec.add_sub_cancel, Nat.reduceLT]

/-- R66: each rotation and xor is undone, and each difference. -/
theorem qr_iqr (t : Quad) : qr (iqr t) = t := by
  simp only [iqr, qr, rotl32_rotr32_xor, BitVec.sub_add_cancel, Nat.reduceLT]

/-- Settles O11: the example is taken back because `iqr` takes back every quarter round. -/
theorem quarterRoundsAreInverse : Obligations.QuarterRoundsAreInverse := by
  have hexample : qr ⟨1, 2, 3, 4⟩ = ⟨0x70001003, 0x8b89b9bb, 0x07170373, 0x07100370⟩ := by decide
  exact ⟨iqr_qr, qr_iqr, hexample, hexample ▸ iqr_qr _⟩

/-! The words of a group. -/

/-- The four word indices of a group, as a list. -/
def Indices.words (q : Indices) : List (Fin 16) := [q.a, q.b, q.c, q.d]

/-- The words of `v` that a quarter round at `q` works on (R68). -/
def quadAt (v : Block) (q : Indices) : Quad := ⟨v[q.a], v[q.b], v[q.c], v[q.d]⟩

/-- R68: word by word. Each word depends on the words of the group and on that word before. -/
theorem getElem_applyAt (v : Block) (q : Indices) (f : Quad → Quad) (w : Fin 16) :
    (applyAt v q f)[w] =
      if q.d = w then (f (quadAt v q)).d else if q.c = w then (f (quadAt v q)).c else
      if q.b = w then (f (quadAt v q)).b else if q.a = w then (f (quadAt v q)).a else v[w] := by
  simp [applyAt, quadAt, Vector.getElem_set, Fin.ext_iff]

/-- R68: the other 12 words are left alone. -/
theorem getElem_applyAt_of_notMem {q : Indices} {w : Fin 16} (hw : w ∉ q.words) (v : Block) (f : Quad → Quad) :
    (applyAt v q f)[w] = v[w] := by
  simp only [Indices.words, List.mem_cons, List.not_mem_nil, or_false, not_or] at hw
  obtain ⟨ha, hb, hc, hd⟩ := hw
  rw [getElem_applyAt, if_neg (Ne.symm hd), if_neg (Ne.symm hc), if_neg (Ne.symm hb), if_neg (Ne.symm ha)]

/-- R68: the words of the group become `f` of what they were. -/
theorem quadAt_applyAt_same {q : Indices} (hq : q.words.Nodup) (v : Block) (f : Quad → Quad) :
    quadAt (applyAt v q f) q = f (quadAt v q) := by
  simp only [Indices.words, List.nodup_cons, List.mem_cons, List.not_mem_nil, or_false, not_or] at hq
  obtain ⟨⟨hab, hac, had⟩, ⟨hbc, hbd⟩, hcd, -⟩ := hq
  rw [quadAt]
  simp only [getElem_applyAt, Ne.symm hab, Ne.symm hac, Ne.symm had, Ne.symm hbc, Ne.symm hbd, Ne.symm hcd, if_true,
    if_false]

theorem quadAt_applyAt_of_disjoint {q p : Indices} (h : q.words.Disjoint p.words) (v : Block) (f : Quad → Quad) :
    quadAt (applyAt v p f) q = quadAt v q := by
  have hword : ∀ w ∈ q.words, (applyAt v p f)[w] = v[w] := fun w hw => getElem_applyAt_of_notMem (h hw) v f
  simp only [Indices.words, List.forall_mem_cons] at hword
  obtain ⟨ha, hb, hc, hd, -⟩ := hword
  simp only [quadAt, ha, hb, hc, hd]

/-- Two blocks are equal that agree on a group and outside it. -/
theorem block_eq_of_quadAt {v u : Block} (q : Indices) (hin : quadAt v q = quadAt u q)
    (hout : ∀ w, w ∉ q.words → v[w] = u[w]) : v = u := by
  apply Block_ext
  intro w
  by_cases hw : w ∈ q.words
  · simp only [quadAt, Quad.mk.injEq] at hin
    obtain ⟨ha, hb, hc, hd⟩ := hin
    simp only [Indices.words, List.mem_cons, List.not_mem_nil, or_false] at hw
    obtain rfl | rfl | rfl | rfl := hw
    · exact ha
    · exact hb
    · exact hc
    · exact hd
  · exact hout w hw

/-! Groups one after another. -/

/-- A group that is transformed and transformed back is as it was. -/
theorem applyAt_undo {f g : Quad → Quad} (hgf : ∀ t, g (f t) = t) {q : Indices} (hq : q.words.Nodup) (v : Block) :
    applyAt (applyAt v q f) q g = v := by
  apply block_eq_of_quadAt q
  · rw [quadAt_applyAt_same hq, quadAt_applyAt_same hq, hgf]
  · intro w hw
    rw [getElem_applyAt_of_notMem hw, getElem_applyAt_of_notMem hw]

/-- R69: groups with no word in common may be transformed in either order. -/
theorem applyAt_comm {q p : Indices} (hp : p.words.Nodup) (h : p.words.Disjoint q.words) (v : Block) (f g : Quad → Quad) :
    applyAt (applyAt v q f) p g = applyAt (applyAt v p g) q f := by
  apply block_eq_of_quadAt p
  · rw [quadAt_applyAt_same hp, quadAt_applyAt_of_disjoint h, quadAt_applyAt_of_disjoint h, quadAt_applyAt_same hp]
  · intro w hw
    rw [getElem_applyAt_of_notMem hw, getElem_applyAt, getElem_applyAt, quadAt_applyAt_of_disjoint h.symm,
      getElem_applyAt_of_notMem hw]

/-- R69: groups with no word in common may be transformed in any order. -/
theorem foldl_applyAt_perm {l m : List Indices} (hl : (l.flatMap Indices.words).Nodup) (hm : l.Perm m) (f : Quad → Quad)
    (v : Block) : l.foldl (fun u q => applyAt u q f) v = m.foldl (fun u q => applyAt u q f) v := by
  obtain ⟨hnodup, hdisjoint⟩ := List.nodup_flatMap.mp hl
  have : Std.Symm (Function.onFun List.Disjoint Indices.words) := ⟨fun _ _ h => h.symm⟩
  refine hm.foldl_eq' (fun q hq p hp u => ?_) v
  by_cases hqp : q = p
  · rw [hqp]
  · exact applyAt_comm (hnodup p hp) (hdisjoint.forall hp hq (Ne.symm hqp)) u f f

/-- Groups transformed in turn are transformed back from the last to the first, and so in any order. -/
theorem foldl_applyAt_undo {f g : Quad → Quad} (hgf : ∀ t, g (f t) = t) {l : List Indices}
    (hl : (l.flatMap Indices.words).Nodup) (v : Block) :
    l.foldl (fun u q => applyAt u q g) (l.foldl (fun u q => applyAt u q f) v) = v := by
  rw [foldl_applyAt_perm hl l.reverse_perm.symm, List.foldl_reverse]
  have hnodup := (List.nodup_flatMap.mp hl).1
  clear hl
  induction l generalizing v with
  | nil => rfl
  | cons q l ih =>
    rw [List.foldl_cons, List.foldr_cons, ih _ fun p hp => hnodup p (List.mem_cons_of_mem q hp)]
    exact applyAt_undo hgf (hnodup q List.mem_cons_self) v

/-! The groups of a round. -/

/-- Settles O12: the table is finite, so it is read off. -/
theorem groupTable : Obligations.GroupTable := by
  refine ⟨rfl, rfl, rfl, rfl, rfl, rfl, rfl, rfl, by decide, by decide, by decide⟩

/-- R67: the four groups of a round have no word in common, and none holds a word twice. -/
theorem roundGroups_words_nodup (i : Nat) : ((roundGroups i).flatMap Indices.words).Nodup := by
  obtain ⟨-, -, -, -, -, -, -, -, hcolumns, hdiagonals, -⟩ := groupTable
  unfold roundGroups
  split
  · exact hcolumns.nodup_iff.mpr (List.nodup_finRange 16)
  · exact hdiagonals.nodup_iff.mpr (List.nodup_finRange 16)

/-- The groups of a round by number (R67, R69). -/
theorem map_groupOf (i : Nat) :
    (if i % 2 = 0 then ([0, 1, 2, 3] : List GroupNo) else [4, 5, 6, 7]).map groupOf = roundGroups i := by
  unfold roundGroups
  split <;> rfl

/-- Groups taken by number, one after another. -/
theorem foldl_applyGroup (l : List GroupNo) (f : Quad → Quad) (v : Block) :
    l.foldl (fun u g => applyGroup u g f) v = (l.map groupOf).foldl (fun u q => applyAt u q f) v := by
  rw [List.foldl_map]
  rfl

/-- Settles O13: the groups of a round have no word in common. -/
theorem roundGroupsInAnyOrder : Obligations.RoundGroupsInAnyOrder := by
  intro v i order horder
  have hperm : (roundGroups i).Perm (order.map groupOf) := by
    rw [← map_groupOf]
    exact (horder.map groupOf).symm
  rw [foldl_applyGroup, ← foldl_applyAt_perm (roundGroups_words_nodup i) hperm, fwdRound]

/-- R70. -/
theorem invRound_fwdRound (v : Block) (i : Nat) : invRound (fwdRound v i) i = v :=
  foldl_applyAt_undo iqr_qr (roundGroups_words_nodup i) v

/-- Settles O14: the loop of R70 by group number, and the undoing of groups in turn. -/
theorem inverseRoundUndoesRound : Obligations.InverseRoundUndoesRound := by
  intro v i
  refine ⟨?_, invRound_fwdRound v i⟩
  rw [foldl_applyGroup, map_groupOf, invRound]

/-! Ranges of rounds. -/

/-- R73: the last round done is the first undone. -/
theorem inverse_forward (v : Block) (lo hi : Nat) : inverse (forward v lo hi) lo hi = v := by
  unfold inverse forward
  induction hi - lo with
  | zero => rfl
  | succ n ih => rw [forwardN_succ, inverseN, invRound_fwdRound, ih]

/-- R73. -/
theorem forward_forward (v : Block) {lo m hi : Nat} (hlo : lo ≤ m) (hhi : m ≤ hi) :
    forward (forward v lo m) m hi = forward v lo hi := by
  have hsum := forwardN_add v lo (m - lo) (hi - m)
  rw [show m - lo + (hi - m) = hi - lo by omega, show lo + (m - lo) = m by omega] at hsum
  exact hsum.symm

/-- Settles O15: the rounds from K on are undone, and those before K stand. -/
theorem partialInversionGivesSnapshot : Obligations.PartialInversionGivesSnapshot := by
  refine ⟨fun v lo hi _ => inverse_forward v lo hi, fun v _ _ _ hlo hhi => (forward_forward v hlo hhi).symm, ?_⟩
  intro v k r hkr
  rw [← forward_forward v (Nat.zero_le k) hkr, inverse_forward]

end Sys2Proof.Machine
end

/-! PROOFS. What the permutation commands give once they have settled (O17 to O23): the writes of the command that the
sequencer holds after its last round, whose buffers the invariant `JobOk` names. -/

section
namespace Sys2Proof.Machine

open Sys2Proof.Safety

/-! Blocks word by word. -/

theorem getWord_addBlocks (v u : Block) (w : WordNo) : getWord (addBlocks v u) w = getWord v w + getWord u w :=
  getElem_addBlocks v u w.toNat w.isLt

/-- Two blocks with the same words by number are equal. -/
theorem block_eq_of_getWord {v u : Block} (h : ∀ w, getWord v w = getWord u w) : v = u := by
  apply Block_ext
  intro w
  simpa [getWord, Nat.mod_eq_of_lt w.isLt] using h (BitVec.ofNat 4 w.val)

/-- A bank that is `v` with word `w` replaced by `x` (R11). -/
theorem State.bankWord_of_bank_eq_putWord {t : State} {d : BankNo} {v : Block} {w : WordNo} {x : Word}
    (h : t.bank d = putWord v w x) : t.bankWord d w = x ∧ ∀ u, u ≠ w → t.bankWord d u = getWord v u := by
  unfold State.bankWord
  rw [h]
  exact ⟨getWord_putWord_same v w x, fun u hu => getWord_putWord_of_ne v x hu⟩

/-- R68: the four words of group `g`, and the other 12. -/
theorem applyGroup_words (v : Block) (g : GroupNo) (f : Quad → Quad) :
    let q := groupOf g
    let y := f (quadAt v q)
    let z := applyGroup v g f
    z[q.a] = y.a ∧ z[q.b] = y.b ∧ z[q.c] = y.c ∧ z[q.d] = y.d ∧
      ∀ w : Fin 16, w ≠ q.a → w ≠ q.b → w ≠ q.c → w ≠ q.d → z[w] = v[w] := by
  intro q y z
  have hmem : q ∈ columns ++ diagonals := List.getElem_mem _
  have hnodup : ∀ p ∈ columns ++ diagonals, p.words.Nodup := by decide
  have hquad : quadAt z q = y := quadAt_applyAt_same (hnodup q hmem) v f
  rw [← hquad]
  refine ⟨rfl, rfl, rfl, rfl, fun w ha hb hc hd => getElem_applyAt_of_notMem ?_ v f⟩
  simp only [Indices.words, List.mem_cons, List.not_mem_nil, or_false, not_or]
  exact ⟨ha, hb, hc, hd⟩

/-! The command that the sequencer holds after its last round. -/

/-- What the sequencer holds when the command accepted in `s` has done all its rounds. -/
def doneJob (i : Instr) (s : State) : InFlight := roundSteps (roundsLeft (jobOf i s)) (jobOf i s)

/-- R47, R48: an admissible command is accepted, and once it has settled the banks are what its writes leave. -/
theorem exec_settles {i : Instr} {s : State} (hadm : Admissible i s) :
    ∃ t, exec i s = .next t ∧ t.busy = true ∧ (settle t).busy = false ∧
      ∀ b, (settle t).bank b = (commitWrites (doneJob i s) (s.noteReads (sources i))).bank b := by
  have hexec := exec_of_admissible hadm
  refine ⟨_, hexec, rfl, ?_, fun b => ?_⟩
  · rw [State.busy_eq_false_iff, settle_inFlight]
  · rw [settle_exec hadm hexec, commit_bank, doneJob]

@[simp] theorem doneJob_cmd (i : Instr) (s : State) : (doneJob i s).cmd = i := by
  rw [doneJob, roundSteps_cmd, jobOf_cmd]

theorem roundsLeft_doneJob (i : Instr) (s : State) : roundsLeft (doneJob i s) = 0 := by
  have := roundsLeft_roundSteps (le_refl (roundsLeft (jobOf i s)))
  rw [doneJob]
  omega

theorem roundStep_srcA (f : InFlight) : (roundStep f).srcA = f.srcA := by
  unfold roundStep
  split <;> rfl

theorem roundSteps_srcA (n : Nat) (f : InFlight) : (roundSteps n f).srcA = f.srcA := by
  induction n generalizing f with
  | zero => rfl
  | succ n ih => rw [roundSteps, ih, roundStep_srcA]

theorem doneJob_srcA (i : Instr) (s : State) : (doneJob i s).srcA = (jobOf i s).srcA := roundSteps_srcA _ _

/-- The rounds that are left keep the buffers in step with the round index. -/
theorem jobOk_roundSteps {n : Nat} {f : InFlight} (h : JobOk f) (hn : n ≤ roundsLeft f) : JobOk (roundSteps n f) := by
  induction n generalizing f with
  | zero => exact h
  | succ n ih =>
    have hleft : roundsLeft f ≠ 0 := by omega
    have hdone := roundsLeft_roundStep f hleft
    exact ih (h.roundStep hleft) (by omega)

theorem jobOk_doneJob {i : Instr} (s : State) (h : i.WellFormed) : JobOk (doneJob i s) :=
  jobOk_roundSteps (jobOk_jobOf s h) (le_refl _)

/-! The buffers after the last round. -/

/-- R79: the working buffer of BLK with E = 0. -/
theorem doneJob_blk_work (d a : BankNo) (r : RoundNo) (fin : Bool) (s : State) :
    (doneJob (.blk d a r fin) s).work = forward (s.bank a) 0 r.toNat := by
  have hok := jobOk_doneJob (i := .blk d a r fin) s rfl
  have hleft := roundsLeft_doneJob (.blk d a r fin) s
  simp only [JobOk, roundsLeft, doneJob_cmd] at hok hleft
  obtain ⟨hle, hwork⟩ := hok
  rw [hwork, doneJob_srcA, show (doneJob (.blk d a r fin) s).round = r.toNat by omega]
  rfl

/-- R79: the working and snapshot buffers of BLK with E = 1. -/
theorem doneJob_blkSnap_buffers (d a p : BankNo) {r k : RoundNo} (fin : Bool) (s : State) (hk : k.toNat ≤ r.toNat) :
    (doneJob (.blkSnap d a p r k fin) s).work = forward (s.bank a) 0 r.toNat ∧
    (doneJob (.blkSnap d a p r k fin) s).snap = forward (s.bank a) 0 k.toNat := by
  have hok := jobOk_doneJob (i := .blkSnap d a p r k fin) s (decide_eq_true hk)
  have hleft := roundsLeft_doneJob (.blkSnap d a p r k fin) s
  simp only [JobOk, roundsLeft, doneJob_cmd, doneJob_srcA] at hok hleft
  obtain ⟨hle, hwork, hsnap⟩ := hok
  have hround : (doneJob (.blkSnap d a p r k fin) s).round = r.toNat := by omega
  rw [hround] at hwork hsnap
  exact ⟨hwork, hsnap hk⟩

/-- R80: the working buffer of INVP. -/
theorem doneJob_invp_work (d a : BankNo) {hi lo : RoundNo} (s : State) (h : lo.toNat ≤ hi.toNat) :
    (doneJob (.invp d a hi lo) s).work = inverse (s.bank a) lo.toNat hi.toNat := by
  have hok := jobOk_doneJob (i := .invp d a hi lo) s (decide_eq_true h)
  have hleft := roundsLeft_doneJob (.invp d a hi lo) s
  simp only [JobOk, roundsLeft, doneJob_cmd, doneJob_srcA] at hok hleft
  obtain ⟨hlo, hhi, hwork⟩ := hok
  rw [hwork, show (doneJob (.invp d a hi lo) s).round = lo.toNat by omega]
  rfl

/-! What the commands with rounds write. -/

theorem commitWrites_blk_bank {f : InFlight} {d a : BankNo} {r : RoundNo} {fin : Bool} (h : f.cmd = .blk d a r fin)
    (s : State) : (commitWrites f s).bank d = blkOut fin f := by
  simp [commitWrites, h, commitBlk]

/-- R79: where P = D the second write stands. -/
theorem commitWrites_blkSnap_bank {f : InFlight} {d a p : BankNo} {r k : RoundNo} {fin : Bool}
    (h : f.cmd = .blkSnap d a p r k fin) (s : State) :
    (p ≠ d → (commitWrites f s).bank p = f.snap) ∧ (commitWrites f s).bank d = blkOut fin f := by
  simp +contextual [commitWrites, h, commitBlkSnap, State.bank_writeBank]

theorem commitWrites_invp_bank {f : InFlight} {d a : BankNo} {hi lo : RoundNo} (h : f.cmd = .invp d a hi lo)
    (s : State) : (commitWrites f s).bank d = f.work := by
  simp [commitWrites, h, commitInvp]

/-- R79: OUT, word by word, of a working buffer `v` and a source `u`. -/
theorem getWord_blkOut (fin : Bool) {f : InFlight} {v u : Block} (hwork : f.work = v) (hsrc : f.srcA = u) (w : WordNo) :
    getWord (blkOut fin f) w = getWord v w + if fin then getWord u w else 0#32 := by
  subst hwork hsrc
  cases fin
  · exact (BitVec.add_zero _).symm
  · exact getWord_addBlocks _ _ _

/-! The commands without rounds. -/

/-- Settles O17: N ≠ 0 passes check 3 of R49, and the commit writes the one word into a copy of bank A. -/
theorem rotationCommandsRotateOneWord : Obligations.RotationCommandsRotateOneWord := by
  intro d a w n s _ hn
  have hrange : 1 ≤ n.toNat := Nat.one_le_iff_ne_zero.mpr fun h => hn (BitVec.eq_of_toNat_eq h)
  constructor
  · obtain ⟨t, hexec, hbusy, hdone, hbank⟩ :=
      exec_settles (i := .rotl d a w n) (s := s) ⟨decide_eq_true hrange, nofun⟩
    exact ⟨t, hexec, hbusy, hdone, State.bankWord_of_bank_eq_putWord ((hbank d).trans (State.bank_writeBank_same ..))⟩
  · obtain ⟨t, hexec, hbusy, hdone, hbank⟩ :=
      exec_settles (i := .rotr d a w n) (s := s) ⟨decide_eq_true hrange, nofun⟩
    exact ⟨t, hexec, hbusy, hdone, State.bankWord_of_bank_eq_putWord ((hbank d).trans (State.bank_writeBank_same ..))⟩

/-- Settles O18: the commit writes bank A with the group's quarter round. -/
theorem qrCommandRunsQuarterRound : Obligations.QrCommandRunsQuarterRound := by
  intro d a g s _
  obtain ⟨t, hexec, hbusy, hdone, hbank⟩ := exec_settles (i := .qr d a g) (s := s) ⟨rfl, nofun⟩
  have hd : (settle t).bank d = applyGroup (s.bank a) g qr := (hbank d).trans (State.bank_writeBank_same ..)
  refine ⟨t, hexec, hbusy, hdone, ?_⟩
  rw [hd]
  exact applyGroup_words (s.bank a) g qr

/-- Settles O19: the commit writes bank A with the group's inverse quarter round. -/
theorem iqrCommandRunsInverseQuarterRound : Obligations.IqrCommandRunsInverseQuarterRound := by
  intro d a g s _
  obtain ⟨t, hexec, hbusy, hdone, hbank⟩ := exec_settles (i := .iqr d a g) (s := s) ⟨rfl, nofun⟩
  have hd : (settle t).bank d = applyGroup (s.bank a) g iqr := (hbank d).trans (State.bank_writeBank_same ..)
  refine ⟨t, hexec, hbusy, hdone, ?_⟩
  rw [hd]
  exact applyGroup_words (s.bank a) g iqr

/-! The commands with rounds. -/

/-- Settles O20: the working buffer holds R rounds, and OUT adds the source to it when F = 1. -/
theorem blkGivesForwardRounds : Obligations.BlkGivesForwardRounds := by
  intro d a r fin s _
  obtain ⟨t, hexec, hbusy, hdone, hbank⟩ := exec_settles (i := .blk d a r fin) (s := s) ⟨rfl, nofun⟩
  refine ⟨t, hexec, hbusy, hdone, fun w => ?_⟩
  rw [State.bankWord, hbank, commitWrites_blk_bank (doneJob_cmd ..)]
  exact getWord_blkOut fin (doneJob_blk_work ..) (doneJob_srcA ..) w

/-- Settles O21: as for E = 0, and the snapshot buffer holds K rounds. -/
theorem blkSnapGivesSnapshotAndOutput : Obligations.BlkSnapGivesSnapshotAndOutput := by
  intro d a p r k fin s _ hk
  obtain ⟨t, hexec, hbusy, hdone, hbank⟩ :=
    exec_settles (i := .blkSnap d a p r k fin) (s := s) ⟨decide_eq_true hk, nofun⟩
  obtain ⟨hwork, hsnap⟩ := doneJob_blkSnap_buffers d a p fin s hk
  obtain ⟨hp, hd⟩ :=
    commitWrites_blkSnap_bank (doneJob_cmd (.blkSnap d a p r k fin) s) (s.noteReads (sources (.blkSnap d a p r k fin)))
  refine ⟨t, hexec, hbusy, hdone, fun hpd => ?_, fun w => ?_⟩
  · rw [hbank, hp hpd, hsnap]
  · rw [State.bankWord, hbank, hd]
    exact getWord_blkOut fin hwork (doneJob_srcA ..) w

/-- Settles O22: the working buffer holds the inverse of the rounds from hi down to lo. -/
theorem invpInvertsRounds : Obligations.InvpInvertsRounds := by
  intro d a hi lo s _ h
  obtain ⟨t, hexec, hbusy, hdone, hbank⟩ := exec_settles (i := .invp d a hi lo) (s := s) ⟨decide_eq_true h, nofun⟩
  exact ⟨t, hexec, hbusy, hdone,
    (hbank d).trans ((commitWrites_invp_bank (doneJob_cmd ..) _).trans (doneJob_invp_work d a s h))⟩

/-- Settles O23: INVP undoes the R rounds that BLK left in the bank. -/
theorem invpUndoesBlk : Obligations.InvpUndoesBlk := by
  intro x y r s hidle
  obtain ⟨t, hblk, -, -, hx⟩ := blkGivesForwardRounds x y r false s hidle
  obtain ⟨u, hinvp, -, -, hback⟩ := invpInvertsRounds x x r 0 (settle t) (settle_inFlight t) (Nat.zero_le _)
  have hrounds : (settle t).bank x = forward (s.bank y) 0 r.toNat :=
    block_eq_of_getWord fun w => (hx w).trans (BitVec.add_zero _)
  refine ⟨t, u, hblk, hinvp, ?_⟩
  rw [hback, hrounds]
  exact inverse_forward (s.bank y) 0 r.toNat

end Sys2Proof.Machine
end

/-! PROOFS. What the word-wise commands give once they have settled (O25 to O27). They have no rounds, so the sequencer
commits the sources as they were at acceptance, with one write to bank D. -/

section
namespace Sys2Proof.Machine

open Sys2Proof.Safety

/-! Blocks word by word, and a word bit by bit. -/

theorem getWord_subBlocks (v u : Block) (w : WordNo) : getWord (subBlocks v u) w = getWord v w - getWord u w :=
  getElem_subBlocks v u w.toNat w.isLt

theorem getWord_withConstants_of_lt (v : Block) {w : WordNo} (h : w.toNat < 4) :
    getWord (withConstants v) w = stateConst[w.toNat] := by
  simp [getWord, withConstants, h]

theorem getWord_withConstants_of_ge (v : Block) {w : WordNo} (h : 4 ≤ w.toNat) :
    getWord (withConstants v) w = getWord v w := by
  simp [getWord, withConstants, Nat.not_lt.mpr h]

theorem getWord_upperWords_of_ge (v : Block) {w : WordNo} (h : 4 ≤ w.toNat) :
    getWord (upperWords v) w = getWord v w := by
  simp [getWord, upperWords, Nat.not_lt.mpr h]

/-- R86: `1 << N` has the one bit N. -/
theorem bitOf_one_shiftLeft (n j : BitNo) : bitOf (1#32 <<< n.toNat) j = decide (j = n) := by
  have hshift : 1#32 <<< n.toNat = BitVec.twoPow 32 n.toNat := rfl
  have hn : n.toNat < 32 := n.isLt
  rw [bitOf, hshift, BitVec.getLsbD_twoPow, decide_eq_true hn, Bool.true_and, decide_eq_decide, eq_comm]
  exact BitVec.toNat_inj

theorem bitOf_getWord_flipBit (v : Block) (w u : WordNo) (n j : BitNo) :
    bitOf (getWord (flipBit v w n) u) j = (bitOf (getWord v u) j ^^ (decide (u = w) && decide (j = n))) := by
  rw [flipBit, getWord_putWord]
  split
  · subst u
    rw [← bitOf_one_shiftLeft, decide_eq_true rfl, Bool.true_and]
    exact BitVec.getLsbD_xor
  · rw [decide_eq_false ‹_›, Bool.false_and, Bool.xor_false]

/-- The words of a bank whose contents are known. -/
theorem State.bankWord_of_bank_eq {t : State} {d : BankNo} {v : Block} (h : t.bank d = v) (w : WordNo) :
    t.bankWord d w = getWord v w := by
  rw [State.bankWord, h]

/-- R47, R48: an admissible command whose one write puts `v` into bank `d` is accepted, and leaves `v` there. -/
theorem exec_settles_writeBank {i : Instr} {s : State} {d : BankNo} {v : Block} (hadm : Admissible i s)
    (hwrites : ∀ u, commitWrites (doneJob i s) u = u.writeBank d v) :
    ∃ t, exec i s = .next t ∧ t.busy = true ∧ (settle t).busy = false ∧ (settle t).bank d = v := by
  obtain ⟨t, hexec, hbusy, hdone, hbank⟩ := exec_settles hadm
  exact ⟨t, hexec, hbusy, hdone, by rw [hbank, hwrites, State.bank_writeBank_same]⟩

/-- Settles O25: the commit writes the lane-wise sum and difference of the two banks read at acceptance. -/
theorem addAndSubWordwise : Obligations.AddAndSubWordwise := by
  intro d a b s _
  constructor
  · obtain ⟨t, hexec, hbusy, hdone, hd⟩ :=
      exec_settles_writeBank (i := .add d a b) (s := s) (v := addBlocks (s.bank a) (s.bank b)) ⟨rfl, nofun⟩ fun _ => rfl
    exact ⟨t, hexec, hbusy, hdone, fun w => (State.bankWord_of_bank_eq hd w).trans (getWord_addBlocks _ _ w)⟩
  · obtain ⟨t, hexec, hbusy, hdone, hd⟩ :=
      exec_settles_writeBank (i := .sub d a b) (s := s) (v := subBlocks (s.bank a) (s.bank b)) ⟨rfl, nofun⟩ fun _ => rfl
    exact ⟨t, hexec, hbusy, hdone, fun w => (State.bankWord_of_bank_eq hd w).trans (getWord_subBlocks _ _ w)⟩

/-- Settles O26: COPY commits bank A itself, and CONST its words 4 to 15 under the constants. -/
theorem copyAndConst : Obligations.CopyAndConst := by
  intro d a s _
  constructor
  · exact exec_settles_writeBank (i := .copy d a) ⟨rfl, nofun⟩ fun _ => rfl
  · obtain ⟨t, hexec, hbusy, hdone, hd⟩ :=
      exec_settles_writeBank (i := .const d a) (s := s) (v := withConstants (upperWords (s.bank a))) ⟨rfl, nofun⟩
        fun _ => rfl
    have hlow (w : WordNo) (h : w.toNat < 4) : (settle t).bankWord d w = stateConst[w.toNat] :=
      (State.bankWord_of_bank_eq hd w).trans (getWord_withConstants_of_lt _ h)
    refine ⟨t, hexec, hbusy, hdone, hlow 0 (by decide), hlow 1 (by decide), hlow 2 (by decide), hlow 3 (by decide),
      fun w h => ?_⟩
    rw [State.bankWord_of_bank_eq hd, getWord_withConstants_of_ge _ h, getWord_upperWords_of_ge _ h, State.bankWord]

/-- Settles O27: the commit writes bank A with bit N of word W flipped. -/
theorem xbitFlipsOneBit : Obligations.XbitFlipsOneBit := by
  intro d a w n s _
  obtain ⟨t, hexec, hbusy, hdone, hd⟩ :=
    exec_settles_writeBank (i := .xbit d a w n) (s := s) (v := flipBit (s.bank a) w n) ⟨rfl, nofun⟩ fun _ => rfl
  refine ⟨t, hexec, hbusy, hdone, fun u j => ?_⟩
  rw [State.bankWord_of_bank_eq hd]
  exact bitOf_getWord_flipBit (s.bank a) w u n j

end Sys2Proof.Machine
end

/-! PROOFS. What the comparator commands do once they have settled (O28, O29, O31), and the compares that a full counter turns
away (O30). -/

section
namespace Sys2Proof.Machine

open Sys2Proof.Safety

/-! The compares. -/

/-- R25: the five fields of CMPR do not overlap. -/
theorem cmprWord_toNat : ∀ m a b c d : Bool,
    (cmprWord m a b c d).toNat = m.toNat + 2 * a.toNat + 4 * b.toNat + 8 * c.toNat + 16 * d.toNat := by decide

/-- R87 to R89: where no counter is full, a compare's count wraps neither of them. -/
theorem State.countCompare_toNat {s : State} (hfull : s.counterFull = false) (m a b c d : Bool) :
    (s.countCompare m a b c d).trialCnt.toNat = s.trialCnt.toNat + 1 ∧
      (s.countCompare m a b c d).matchCnt.toNat = s.matchCnt.toNat + m.toNat ∧
      (s.countCompare m a b c d).cmpr.toNat = m.toNat + 2 * a.toNat + 4 * b.toNat + 8 * c.toNat + 16 * d.toNat := by
  obtain ⟨htrial, hmatch⟩ := (counterFull_eq_false_iff s).mp hfull
  exact ⟨toNat_add_countOf htrial true, toNat_add_countOf hmatch m, cmprWord_toNat m a b c d⟩

/-- R47, R48: an admissible command whose one write is a compare's count is accepted, and leaves that count of the state
before. -/
theorem exec_settles_countCompare {i : Instr} {s : State} {m a b c d : Bool} (hadm : Admissible i s)
    (hfull : s.counterFull = false) (hwrites : ∀ u, commitWrites (doneJob i s) u = u.countCompare m a b c d) :
    ∃ t, exec i s = .next t ∧ t.busy = true ∧ (settle t).busy = false ∧
      (settle t).trialCnt.toNat = s.trialCnt.toNat + 1 ∧
      (settle t).matchCnt.toNat = s.matchCnt.toNat + m.toNat ∧
      (settle t).cmpr.toNat = m.toNat + 2 * a.toNat + 4 * b.toNat + 8 * c.toNat + 16 * d.toNat := by
  obtain ⟨t, hexec, hbusy, hdone, -⟩ := exec_settles hadm
  have hsettle : settle t = ((s.noteReads (sources i)).countCompare m a b c d).release := by
    rw [settle_exec hadm hexec, commit, ← doneJob, hwrites]
  refine ⟨t, hexec, hbusy, hdone, ?_⟩
  rw [hsettle, State.noteReads_eq]
  exact State.countCompare_toNat hfull m a b c d

/-- Settles O28: the commit counts the two bits read at acceptance, with BC and BD 0. -/
theorem cmp2CountsAndRecords : Obligations.Cmp2CountsAndRecords := by
  intro k0 k1 w n s _ hfull
  exact exec_settles_countCompare (i := .cmp2 k0 k1 w n) (c := false) (d := false) ⟨rfl, fun _ => hfull⟩ hfull fun _ => rfl

/-- Settles O29: the commit counts the four bits read at acceptance. -/
theorem cmp4CountsAndRecords : Obligations.Cmp4CountsAndRecords := by
  intro k0 k1 k2 k3 w n s _ hfull
  exact exec_settles_countCompare (i := .cmp4 k0 k1 k2 k3 w n) ⟨rfl, fun _ => hfull⟩ hfull fun _ => rfl

theorem State.counterFull_iff (s : State) :
    s.counterFull = true ↔ s.trialCnt = 0xFFFFFFFF#32 ∨ s.matchCnt = 0xFFFFFFFF#32 := by
  simp [State.counterFull]

/-- Settles O30: both commands fail check 4 of R49. -/
theorem fullCounterRejectsCompares : Obligations.FullCounterRejectsCompares := by
  intro k0 k1 k2 k3 w n s h
  have hfull := s.counterFull_iff.mpr h
  exact ⟨exec_of_counterFull rfl hfull, exec_of_counterFull rfl hfull⟩

/-! The commands that read no source. -/

/-- The writes of a command leave BUSY to its release. -/
theorem commitWrites_inFlight (f : InFlight) (s : State) : (commitWrites f s).inFlight = s.inFlight := by
  unfold commitWrites
  split <;> rfl

/-- R47, R48: an admissible command that reads no source is accepted on an idle core, and once it has settled the state before
has its writes and no other change. -/
theorem exec_settles_of_no_source {i : Instr} {s : State} (hadm : Admissible i s) (hsrc : sources i = [])
    (hidle : s.inFlight = none) :
    ∃ t, exec i s = .next t ∧ t.busy = true ∧ settle t = commitWrites (doneJob i s) s := by
  obtain ⟨t, hexec, hbusy, -⟩ := exec_settles hadm
  refine ⟨t, hexec, hbusy, ?_⟩
  rw [settle_exec hadm hexec, hsrc]
  exact State.setInFlight_self ((commitWrites_inFlight _ s).trans hidle)

/-- Settles O31: neither command reads a source, and their commits write what is stated. -/
theorem clrcAndNop : Obligations.ClrcAndNop := by
  intro s hidle
  exact ⟨exec_settles_of_no_source (i := .clrc) ⟨rfl, nofun⟩ rfl hidle,
    exec_settles_of_no_source (i := .nop) ⟨rfl, nofun⟩ rfl hidle⟩

end Sys2Proof.Machine
end

/-! PROOFS. The host's sequences (O16, O58 to O60): the commands of the PNB trial one after another, each seen by the state it
leaves once it has settled; then the arithmetic of a guess that is wrong in one bit, and of the bias. -/

section
namespace Sys2Proof.Machine

open Sys2Proof.Safety

/-! A command that has settled, as one change of the state. -/

/-- What an admissible command leaves once it has settled. -/
def settled (i : Instr) (s : State) : State := commit (doneJob i s) (s.noteReads (sources i))

theorem settle_eq_settled {i : Instr} {s t : State} (hadm : Admissible i s) (ht : exec i s = .next t) :
    settle t = settled i s := settle_exec hadm ht

/-- R61, R128: an admissible command has settled before the next one is issued. -/
theorem runCommands_cons {i : Instr} {s : State} (hadm : Admissible i s) (rest : List Instr) :
    runCommands (i :: rest) s = runCommands rest (settled i s) := by
  have hexec := exec_of_admissible hadm
  simp only [runCommands, hexec, settle_eq_settled hadm hexec]

theorem settled_busy (i : Instr) (s : State) : (settled i s).busy = false := commit_busy ..

@[simp] theorem State.noteReads_bank (s : State) (l : List (BankNo × BitVec 16)) (b : BankNo) :
    (s.noteReads l).bank b = s.bank b := by
  rw [State.noteReads_eq]
  rfl

/-- R25: a command that is not a compare or CLRC leaves the counters and CMPR. -/
theorem settled_counters {i : Instr} (hi : writesCounters i = false) (s : State) :
    (settled i s).matchCnt = s.matchCnt ∧ (settled i s).trialCnt = s.trialCnt ∧ (settled i s).cmpr = s.cmpr := by
  obtain ⟨-, -, hcounters, -⟩ := commitWrites_frame (doneJob i s) (s.noteReads (sources i))
  rw [doneJob_cmd] at hcounters
  rw [State.noteReads_eq] at hcounters
  rw [settled, State.noteReads_eq]
  exact hcounters hi

/-! The banks after each command of the PNB trial. -/

/-- A command whose one write puts `v` into bank `d`. -/
theorem settled_bank_of_writeBank {i : Instr} {s : State} {d : BankNo} {v : Block}
    (hwrites : ∀ u, commitWrites (doneJob i s) u = u.writeBank d v) (b : BankNo) :
    (settled i s).bank b = if b = d then v else s.bank b := by
  rw [settled, commit_bank, hwrites, State.bank_writeBank, State.noteReads_bank]

/-- R86. -/
@[simp] theorem settled_xbit_bank (d a : BankNo) (w : WordNo) (n : BitNo) (s : State) (b : BankNo) :
    (settled (.xbit d a w n) s).bank b = if b = d then flipBit (s.bank a) w n else s.bank b :=
  settled_bank_of_writeBank (fun _ => rfl) b

/-- R83. -/
@[simp] theorem settled_sub_bank (d a c : BankNo) (s : State) (b : BankNo) :
    (settled (.sub d a c) s).bank b = if b = d then subBlocks (s.bank a) (s.bank c) else s.bank b :=
  settled_bank_of_writeBank (fun _ => rfl) b

/-- R80. -/
theorem settled_invp_bank (d a : BankNo) {hi lo : RoundNo} (h : lo.toNat ≤ hi.toNat) (s : State) (b : BankNo) :
    (settled (.invp d a hi lo) s).bank b = if b = d then inverse (s.bank a) lo.toNat hi.toNat else s.bank b := by
  apply settled_bank_of_writeBank
  intro u
  simp only [commitWrites, doneJob_cmd, commitInvp]
  rw [doneJob_invp_work d a s h]

/-- R79, with F = 1: the destination write comes second. -/
theorem settled_blkSnap_bank (d a p : BankNo) {r k : RoundNo} (h : k.toNat ≤ r.toNat) (s : State) (b : BankNo) :
    (settled (.blkSnap d a p r k true) s).bank b =
      if b = d then addBlocks (forward (s.bank a) 0 r.toNat) (s.bank a)
      else if b = p then forward (s.bank a) 0 k.toNat else s.bank b := by
  obtain ⟨hwork, hsnap⟩ := doneJob_blkSnap_buffers d a p true s h
  have hsrc : (doneJob (.blkSnap d a p r k true) s).srcA = s.bank a := doneJob_srcA ..
  have hout : blkOut true (doneJob (.blkSnap d a p r k true) s) = addBlocks (forward (s.bank a) 0 r.toNat) (s.bank a) := by
    rw [blkOut, if_pos rfl, hwork, hsrc]
  simp only [settled, commit_bank, commitWrites, doneJob_cmd, commitBlkSnap]
  rw [State.bank_writeBank, State.bank_writeBank, hout, hsnap, State.noteReads_bank]

/-- R89. -/
theorem settled_cmp4 (k0 k1 k2 k3 : BankNo) (w : WordNo) (n : BitNo) (s : State) :
    settled (.cmp4 k0 k1 k2 k3 w n) s =
      ((s.noteReads (sources (.cmp4 k0 k1 k2 k3 w n))).countCompare
        (verdict4 (bitOf (s.bankWord k0 w) n) (bitOf (s.bankWord k1 w) n) (bitOf (s.bankWord k2 w) n)
          (bitOf (s.bankWord k3 w) n))
        (bitOf (s.bankWord k0 w) n) (bitOf (s.bankWord k1 w) n) (bitOf (s.bankWord k2 w) n)
        (bitOf (s.bankWord k3 w) n)).release := rfl

/-- R89: a compare writes no bank. -/
theorem settled_cmp4_bank (k0 k1 k2 k3 : BankNo) (w : WordNo) (n : BitNo) (s : State) (b : BankNo) :
    (settled (.cmp4 k0 k1 k2 k3 w n) s).bank b = s.bank b := by
  rw [settled_cmp4, State.release_bank, State.countCompare_bank, State.noteReads_bank]

/-- R25: M is bit 0 of CMPR. -/
theorem cmprWord_getLsbD_zero : ∀ m a b c d : Bool, (cmprWord m a b c d).getLsbD 0 = m := by decide

/-- R87 to R89: where no counter is full, the verdict is M and the count of the compare. -/
theorem settled_cmp4_counts (k0 k1 k2 k3 : BankNo) (w : WordNo) (n : BitNo) {s : State} (hfull : s.counterFull = false) :
    let a := bitOf (s.bankWord k0 w) n
    let b := bitOf (s.bankWord k1 w) n
    let c := bitOf (s.bankWord k2 w) n
    let d := bitOf (s.bankWord k3 w) n
    let m := verdict4 a b c d
    let t := settled (.cmp4 k0 k1 k2 k3 w n) s
    t.cmpr.getLsbD 0 = m ∧ t.matchCnt.toNat = s.matchCnt.toNat + m.toNat ∧ t.trialCnt.toNat = s.trialCnt.toNat + 1 := by
  intro a b c d m t
  obtain ⟨htrial, hmatch, -⟩ := State.countCompare_toNat hfull m a b c d
  have ht : t = ((s.noteReads (sources (.cmp4 k0 k1 k2 k3 w n))).countCompare m a b c d).release := settled_cmp4 ..
  rw [ht, State.noteReads_eq]
  exact ⟨cmprWord_getLsbD_zero .., hmatch, htrial⟩

/-! Several commands. -/

/-- What several admissible commands leave, each settled before the next is issued. -/
def settledAll (l : List Instr) (s : State) : State := l.foldl (fun u i => settled i u) s

/-- Well-formed commands that leave the counters run whatever the state, and leave the counters to what follows. -/
theorem runCommands_append {l : List Instr} (hl : ∀ i ∈ l, i.WellFormed ∧ writesCounters i = false) (rest : List Instr)
    (s : State) : runCommands (l ++ rest) s = runCommands rest (settledAll l s) := by
  induction l generalizing s with
  | nil => rfl
  | cons i l ih =>
    obtain ⟨⟨hwf, hcount⟩, htail⟩ := List.forall_mem_cons.mp hl
    have hnot : isCompare i = false := (Bool.or_eq_false_iff.mp hcount).1
    have hadm : Admissible i s := ⟨hwf, fun hi => absurd hi (by simp [hnot])⟩
    rw [List.cons_append, runCommands_cons hadm, ih htail]
    rfl

theorem settledAll_counters {l : List Instr} (hl : ∀ i ∈ l, writesCounters i = false) (s : State) :
    (settledAll l s).matchCnt = s.matchCnt ∧ (settledAll l s).trialCnt = s.trialCnt := by
  induction l generalizing s with
  | nil => exact ⟨rfl, rfl⟩
  | cons i l ih =>
    obtain ⟨hi, htail⟩ := List.forall_mem_cons.mp hl
    obtain ⟨hmatch, htrial, -⟩ := settled_counters hi s
    obtain ⟨ihmatch, ihtrial⟩ := ih htail (settled i s)
    exact ⟨ihmatch.trans hmatch, ihtrial.trans htrial⟩

/-! The PNB trial. -/

/-- The commands of the PNB trial before its compare (R100). -/
def pnbStates (r k : RoundNo) (dw : WordNo) (db : BitNo) (f : WordNo) (n : BitNo) : List Instr :=
  [.xbit 1 0 dw db, .blkSnap 2 0 4 r k true, .blkSnap 3 1 5 r k true, .xbit 6 0 f n, .xbit 7 1 f n, .sub 6 2 6, .sub 7 3 7,
    .invp 6 6 r k, .invp 7 7 r k]

theorem pnbTrial_eq (r k : RoundNo) (dw : WordNo) (db : BitNo) (ow : WordNo) (ob : BitNo) (f : WordNo) (n : BitNo) :
    pnbTrial r k dw db ow ob f n = pnbStates r k dw db f n ++ [.cmp4 4 5 6 7 ow ob] := rfl

theorem pnbStates_wellFormed {r k : RoundNo} (hk : k.toNat ≤ r.toNat) (dw : WordNo) (db : BitNo) (f : WordNo) (n : BitNo) :
    ∀ i ∈ pnbStates r k dw db f n, i.WellFormed ∧ writesCounters i = false := by
  simp [pnbStates, Instr.WellFormed, Instr.inRange, writesCounters, isCompare, hk]

/-- `Z - Xt`: what a state's output leaves when the guess, the state with one bit flipped, is taken from it (R100). -/
def guessedRounds (v : Block) (r : Nat) (f : WordNo) (n : BitNo) : Block :=
  subBlocks (addBlocks (forward v 0 r) v) (flipBit v f n)

/-- R100: the banks that the compare finds. No command of the nine writes bank 0, and each later read of another bank finds the
last write to it. -/
theorem settledAll_pnbStates_bank {r k : RoundNo} (hk : k.toNat ≤ r.toNat) (dw : WordNo) (db : BitNo) (f : WordNo) (n : BitNo)
    (s : State) :
    let u := settledAll (pnbStates r k dw db f n) s
    let x := s.bank 0
    let x' := flipBit x dw db
    u.bank 0 = x ∧ u.bank 4 = forward x 0 k.toNat ∧ u.bank 5 = forward x' 0 k.toNat ∧
      u.bank 6 = inverse (guessedRounds x r.toNat f n) k.toNat r.toNat ∧
      u.bank 7 = inverse (guessedRounds x' r.toNat f n) k.toNat r.toNat := by
  simp [settledAll, pnbStates, guessedRounds, settled_invp_bank _ _ hk, settled_blkSnap_bank _ _ _ hk]

/-- Settles O58: the nine commands before the compare put the four states in place, and the compare counts them. -/
theorem pnbTrialComparesTheFourStates : Obligations.PnbTrialComparesTheFourStates := by
  intro r k dw db ow ob f n s _ hfull hk
  have hwf := pnbStates_wellFormed hk dw db f n
  obtain ⟨h0, h4, h5, h6, h7⟩ := settledAll_pnbStates_bank hk dw db f n s
  obtain ⟨hmatch, htrial⟩ := settledAll_counters (fun i hi => (hwf i hi).2) s
  generalize hu : settledAll (pnbStates r k dw db f n) s = u at h0 h4 h5 h6 h7 hmatch htrial
  have hroom : u.counterFull = false := by rw [State.counterFull, hmatch, htrial, ← hfull, State.counterFull]
  have hbank (b : BankNo) : (settled (.cmp4 4 5 6 7 ow ob) u).bank b = u.bank b := settled_cmp4_bank ..
  refine ⟨settled (.cmp4 4 5 6 7 ow ob) u, ?_, settled_busy .., (hbank 0).trans h0, (hbank 4).trans h4, (hbank 5).trans h5,
    (hbank 6).trans h6, (hbank 7).trans h7, ?_⟩
  · rw [pnbTrial_eq, runCommands_append hwf, hu, runCommands_cons ⟨rfl, fun _ => hroom⟩, runCommands]
  · simp only [State.bankWord, hbank]
    rw [← hmatch, ← htrial]
    exact settled_cmp4_counts 4 5 6 7 ow ob hroom

/-! A guess that is right, and one that is wrong in one bit. -/

theorem subBlocks_addBlocks_cancel (y x : Block) : subBlocks (addBlocks y x) x = y :=
  block_eq_of_getWord fun w => by rw [getWord_subBlocks, getWord_addBlocks, BitVec.add_sub_cancel]

/-- Settles O16: the sum's second term is taken away again, and the last rounds are undone. -/
theorem exactGuessGivesSnapshot : Obligations.ExactGuessGivesSnapshot := by
  intro x k r hkr
  rw [subBlocks_addBlocks_cancel]
  obtain ⟨-, -, hsnapshot⟩ := partialInversionGivesSnapshot
  exact hsnapshot x k r hkr

/-- The carry of `1 << N` reaches only the bits above N. -/
theorem bitOf_add_one_shiftLeft (v : Word) {n j : BitNo} (h : j.toNat ≤ n.toNat) :
    bitOf (v + 1#32 <<< n.toNat) j = (bitOf v j ^^ decide (j = n)) := by
  have hn : n.toNat < 32 := n.isLt
  have hj : j.toNat < 32 := j.isLt
  have hpow : (1#32 <<< n.toNat).toNat = 2 ^ n.toNat := BitVec.toNat_twoPow_of_lt hn
  have hbit : bitOf (v + 1#32 <<< n.toNat) j = (2 ^ n.toNat + v.toNat).testBit j.toNat := by
    rw [bitOf, BitVec.getLsbD, BitVec.toNat_add, hpow, Nat.testBit_mod_two_pow, decide_eq_true hj, Bool.true_and,
      Nat.add_comm]
  rw [hbit]
  obtain heq | hlt := h.eq_or_lt
  · obtain rfl : j = n := BitVec.eq_of_toNat_eq heq
    rw [Nat.testBit_two_pow_add_eq, decide_eq_true rfl, Bool.xor_true]
    rfl
  · have hne : j ≠ n := fun e => hlt.ne (congrArg _ e)
    rw [Nat.testBit_two_pow_add_gt hlt, decide_eq_false hne, Bool.xor_false]
    rfl

/-- Words with no 1 in common add without a carry. -/
theorem xor_eq_add_of_and_eq_zero {v t : Word} (h : v &&& t = 0#32) : v ^^^ t = v + t := by
  rw [BitVec.add_eq_or_of_and_eq_zero _ _ h]
  ext i hi
  have hi0 : (v[i] && t[i]) = false := by rw [← BitVec.getElem_and, h, BitVec.getElem_zero]
  rw [BitVec.getElem_xor, BitVec.getElem_or]
  revert hi0
  cases v[i] <;> simp

/-- Flipping a bit that is 0 adds its weight. -/
theorem xor_one_shiftLeft_eq_add {v : Word} {n : BitNo} (h : bitOf v n = false) :
    v ^^^ 1#32 <<< n.toNat = v + 1#32 <<< n.toNat := by
  have hshift : 1#32 <<< n.toNat = BitVec.twoPow 32 n.toNat := rfl
  rw [bitOf] at h
  apply xor_eq_add_of_and_eq_zero
  simp [hshift, BitVec.and_twoPow, h]

/-- Flipping a bit adds or takes away its weight. -/
theorem xor_one_shiftLeft_cases (v : Word) (n : BitNo) :
    v ^^^ 1#32 <<< n.toNat = v + 1#32 <<< n.toNat ∨ v = (v ^^^ 1#32 <<< n.toNat) + 1#32 <<< n.toNat := by
  cases hv : bitOf v n with
  | false => exact .inl (xor_one_shiftLeft_eq_add hv)
  | true =>
    have hflip : bitOf (v ^^^ 1#32 <<< n.toNat) n = (bitOf v n ^^ bitOf (1#32 <<< n.toNat) n) := BitVec.getLsbD_xor
    have hclear : bitOf (v ^^^ 1#32 <<< n.toNat) n = false := by
      rw [hflip, bitOf_one_shiftLeft, hv, decide_eq_true rfl, Bool.xor_self]
    rw [← xor_one_shiftLeft_eq_add hclear, BitVec.xor_assoc, BitVec.xor_self, BitVec.xor_zero]
    exact .inr rfl

/-- R102: a word plus another, less that other with bit N flipped, has bit N flipped and the bits below it kept. -/
theorem bitOf_add_sub_flip (y x : Word) {n j : BitNo} (h : j.toNat ≤ n.toNat) :
    bitOf (y + x - (x ^^^ 1#32 <<< n.toNat)) j = (bitOf y j ^^ decide (j = n)) := by
  obtain hadd | hback := xor_one_shiftLeft_cases x n
  · have hy : y = y + x - (x ^^^ 1#32 <<< n.toNat) + 1#32 <<< n.toNat := by
      rw [hadd]
      abel
    conv_rhs => rw [hy, bitOf_add_one_shiftLeft _ h, Bool.xor_assoc, Bool.xor_self, Bool.xor_false]
  · have hsum : y + x - (x ^^^ 1#32 <<< n.toNat) = y + 1#32 <<< n.toNat := by
      rw [sub_eq_iff_eq_add, add_assoc, add_comm (1#32 <<< n.toNat), ← hback]
    rw [hsum, bitOf_add_one_shiftLeft y h]

/-- R102: in a word that is not the guessed one nothing changes, and in that word only its bit N, of the bits up to N. -/
theorem bitOf_guessedRounds (v : Block) (r : Nat) {f w : WordNo} {n j : BitNo}
    (h : w ≠ f ∨ (w = f ∧ j.toNat ≤ n.toNat)) :
    bitOf (getWord (guessedRounds v r f n) w) j =
      (bitOf (getWord (forward v 0 r) w) j ^^ (decide (w = f) && decide (j = n))) := by
  rw [guessedRounds, getWord_subBlocks, getWord_addBlocks, flipBit, getWord_putWord]
  obtain hne | ⟨rfl, hle⟩ := h
  · rw [if_neg hne, BitVec.add_sub_cancel, decide_eq_false hne, Bool.false_and, Bool.xor_false]
  · rw [if_pos rfl, bitOf_add_sub_flip _ _ hle, decide_eq_true rfl, Bool.true_and]

theorem bitOf_bankWord_of_guessedRounds {t : State} {a b : BankNo} {v : Block} {r : Nat} {f w : WordNo} {n j : BitNo}
    (ha : t.bank a = forward v 0 r) (hb : t.bank b = guessedRounds v r f n) (h : w ≠ f ∨ (w = f ∧ j.toNat ≤ n.toNat)) :
    bitOf (t.bankWord b w) j = (bitOf (t.bankWord a w) j ^^ (decide (w = f) && decide (j = n))) := by
  rw [State.bankWord_of_bank_eq ha, State.bankWord_of_bank_eq hb]
  exact bitOf_guessedRounds v r h

/-- A change of both bits of a pair leaves their difference. -/
theorem xor_beq_xor_of_both : ∀ a b c : Bool, ((a ^^ b) == ((a ^^ c) ^^ (b ^^ c))) = true := by decide

/-- Settles O59: the inverse over [R, R) does nothing, and the wrong bit changes both states of a pair alike. -/
theorem pnbTrialWithoutInversionMatches : Obligations.PnbTrialWithoutInversionMatches := by
  intro r dw db ow ob f n s hidle hfull hout
  obtain ⟨t, hrun, -, -, h4, h5, h6, h7, hm, hmatch, htrial⟩ :=
    pnbTrialComparesTheFourStates r r dw db ow ob f n s hidle hfull (le_refl _)
  rw [inverse_self] at h6 h7
  rw [bitOf_bankWord_of_guessedRounds h4 h6 hout, bitOf_bankWord_of_guessedRounds h5 h7 hout,
    xor_beq_xor_of_both] at hm hmatch
  exact ⟨t, hrun, hm, hmatch, htrial⟩

/-! The bias. -/

theorem matchProbability_nonneg (m n : Nat) : 0 ≤ matchProbability m n := by
  unfold matchProbability
  positivity

theorem matchProbability_le_one {m n : Nat} (h : m ≤ n) : matchProbability m n ≤ 1 :=
  div_le_one_of_le₀ (Nat.cast_le.mpr h) (Nat.cast_nonneg n)

/-- Settles O60: p is a fraction of n, and γ is linear in p. -/
theorem biasRange : Obligations.BiasRange := by
  intro m n _ hmn
  have hp0 := matchProbability_nonneg m n
  have hp1 := matchProbability_le_one hmn
  refine ⟨rfl, rfl, hp0, hp1, ?_, ?_, ?_, ?_⟩ <;> unfold bias
  · linarith
  · linarith
  · constructor <;> intro h <;> linarith
  · constructor <;> intro h <;> linarith

end Sys2Proof.Machine
end

/-! PROOFS. Errors and STATUS: the first error is kept (O47), and BUSY as a STATUS read sees it on either side of a commit
(O37). -/

section
namespace Sys2Proof.Machine

open Sys2Proof.Safety

/-! Recording an error. -/

/-- R110: with no error recorded since the last clear, an error sets ERR and its code. -/
theorem State.recordError_of_no_error {s : State} (h : s.err = false) (c : ErrCode) :
    s.recordError c = { s with err := true, errCode := errCodeBits c } := by
  simp [State.recordError, h]

/-- R110: a later error is lost. -/
theorem State.recordError_of_error {s : State} (h : s.err = true) (c : ErrCode) : s.recordError c = s := by
  rw [State.recordError, if_pos h, ← h]

/-- Settles O47: the codes are those of the table, and `recordError` looks at ERR. -/
theorem firstErrorIsKept : Obligations.FirstErrorIsKept :=
  ⟨⟨rfl, rfl, rfl, rfl, rfl, rfl⟩,
    fun _ c => ⟨fun h => State.recordError_of_no_error h c, fun h => State.recordError_of_error h c⟩⟩

/-! A STATUS read around a commit. -/

/-- R21: bit 0 of STATUS is BUSY; the other fields have even weights. -/
theorem State.statusWord_getLsbD_zero (s : State) : s.statusWord.getLsbD 0 = s.busy := by
  have hparity : s.statusWord.toNat % 2 = s.busy.toNat := by
    have hbusy := s.busy.toNat_lt
    rw [s.statusWord_toNat]
    omega
  rw [BitVec.getLsbD, Nat.testBit_zero, hparity]
  cases s.busy <;> rfl

/-- R130: a STATUS read answers the STATUS word, BUSY or not. -/
theorem step_read_status {s : State} {rest : List Turn} (hsched : s.schedule = memRead 0x204 :: rest)
    (hr : s.inReset = false) : step s = .next ((s.setSchedule rest).respond (.data s.statusWord)) := by
  have hread := step_memRead s 0x204 rest hr rfl
  rwa [← s.eq_setSchedule _ hsched] at hread

/-- A commit leaves the schedule and the reset input alone. -/
theorem commit_sameWorld (f : InFlight) (s : State) : SameWorld s (commit f s) := by
  obtain ⟨-, -, -, -, -, hworld, -⟩ := commitWrites_frame f s
  exact hworld

/-- R48: with no round left, the sequencer's move is the commit. -/
theorem step_commit {s : State} {f : InFlight} (rest : List Turn) (hf : s.inFlight = some f) (hleft : roundsLeft f = 0) :
    step (s.setSchedule (.sequencer :: rest)) = .next (commit f (s.setSchedule rest)) :=
  congrArg _ (sequencerTurn_of_no_round_left (s := s.setSchedule rest) hf hleft)

/-- Settles O37: the command is in flight until the commit, which releases it. -/
theorem statusReadBeforeAndAfterCommit : Obligations.StatusReadBeforeAndAfterCommit := by
  intro s f rest hf hleft hr
  have hbusy : s.busy = true := by rw [State.busy, hf, Option.isSome_some]
  constructor
  · exact ⟨_, s.statusWord, step_read_status rfl hr, rfl, s.statusWord_getLsbD_zero.trans hbusy, rfl⟩
  · obtain ⟨hsched, -, hreset, -⟩ := commit_sameWorld f (s.setSchedule (memRead 0x204 :: rest))
    exact ⟨_, _, _, step_commit _ hf hleft, step_read_status hsched (hreset.trans hr), rfl,
      (State.statusWord_getLsbD_zero _).trans (commit_busy f _), rfl⟩

end Sys2Proof.Machine
end

/-! PROOFS. The host's accesses while BUSY = 1 (O43, O44), and the reset input (O51). -/

section
namespace Sys2Proof.Machine

open Sys2Proof.Safety

/-! Accesses while BUSY = 1. -/

/-- R129: a write that BUSY = 1 turns away records E_BUSY alone. -/
theorem unlessBusy_of_busy {s : State} (h : s.busy = true) (t : State) : unlessBusy s t = s.recordError .busy := if_pos h

/-- R47: a command word presented while BUSY = 1 is dropped, whatever the word is. -/
theorem present_of_busy {s : State} (h : s.busy = true) (v : Word) : present v s = .next (s.recordError .busy) := if_pos h

/-- R130: while BUSY = 1 the register's own value `v` does not show in the answer. -/
theorem State.answerIdle_of_busy {s : State} (h : s.busy = true) (v : Word) :
    s.answerIdle v = (s.respond (.data (Config.busyRead s.draws))).draw := if_pos h

/-- R33: a read while BUSY = 1 reads no bank word, so it records none. -/
theorem State.noteHostRead_of_busy {s : State} (h : s.busy = true) (b : BankNo) (w : WordNo) :
    s.noteHostRead b w = s := if_pos h

/-- Settles O43: the write is served, and BUSY turns away the writes of CMD, the banks and the counters; what a write of any
other register does is not BUSY's to decide. -/
theorem busyWrites : Obligations.BusyWrites := by
  intro s rest off v hr hbusy halign
  have hu : ((s.setSchedule rest).respond .done).busy = true := hbusy
  rw [step_memWrite s off v rest hr halign]
  cases regOf off with
  | bank b w => exact congrArg _ (unlessBusy_of_busy hu _)
  | cmd => exact present_of_busy hu v
  | matchCnt => exact congrArg _ (unlessBusy_of_busy hu _)
  | trialCnt => exact congrArg _ (unlessBusy_of_busy hu _)
  | status | cmpr | id | const | reserved => rfl

/-- Settles O44: the read is served, and BUSY hides the banks, the counters and CMPR behind a free value; the other registers
answer whatever BUSY is. -/
theorem busyReads : Obligations.BusyReads := by
  intro s rest off hr hbusy halign
  have hu : (s.setSchedule rest).busy = true := hbusy
  rw [step_memRead s off rest hr halign]
  cases regOf off with
  | bank b w =>
    rw [readReg, State.noteHostRead_of_busy hu, State.answerIdle_of_busy hu]
    rfl
  | matchCnt | trialCnt | cmpr => exact congrArg _ (State.answerIdle_of_busy hu _)
  | cmd | status | id | const | reserved => rfl

/-! The reset input. -/

/-- R124: the reset line driven is the reset applied, where the line is asserted or was. -/
theorem State.driveReset_of_reset {s : State} {asserted : Bool} (h : asserted = true ∨ s.inReset = true) :
    s.driveReset asserted = { s.applyReset with inReset := asserted } :=
  if_pos (by simpa using h)

/-- R42: a move of the reset line is never turned away. -/
theorem step_resetLine (s : State) (asserted : Bool) (rest : List Turn) :
    step (s.setSchedule (.resetLine asserted :: rest)) = .next ((s.setSchedule rest).driveReset asserted) := rfl

/-- R124: an access while reset is asserted is not served. -/
theorem step_access_of_inReset {s : State} (hr : s.inReset = true) (a : Access) (rest : List Turn) :
    step (s.setSchedule (.access a :: rest)) = .fault .accessInReset :=
  if_pos hr

/-- Settles O51: in both cases of the reset line the next state is the one `applyReset` leaves, with the line as driven. -/
theorem resetInput : Obligations.ResetInput := by
  intro s rest
  constructor
  · intro asserted hline
    have hstep := step_resetLine s asserted rest
    rw [State.driveReset_of_reset (s := s.setSchedule rest) hline] at hstep
    exact ⟨_, hstep, rfl, rfl, rfl, rfl, rfl, rfl, rfl, rfl, rfl, (s.setSchedule rest).writtenMask_applyReset⟩
  · intro a hr
    exact step_access_of_inReset hr a rest

end Sys2Proof.Machine
end

/-! PROOFS. The encoded examples of 30_encoding.md section 6 (O7). -/

section
namespace Sys2Proof

theorem decode_of_encode_eq {v : Word} {i : Instr} (h : encode i = v) : decode v = .ok i :=
  h ▸ decodeOfEncode i

/-- Settles O7: the encoder gives each example's command the word beside it, and the word of a command decodes to that
command. -/
theorem specExampleWordsDecode : Obligations.SpecExampleWordsDecode := by
  refine ⟨?_, ?_, ?_, ?_, ?_, ?_, ?_, ?_, ?_, ?_, ?_, ?_, ?_⟩
  all_goals
    apply decode_of_encode_eq
    decide

end Sys2Proof
end
